-- ==== Sys2Proof/Word.lean ====
section
/-! DEFINITION. The two widths of value the hardware handles (00_scope.md R5). -/

namespace Sys2Proof

/-- An unsigned 8-bit value, `u8` of 00_scope.md R5. -/
abbrev Byte := BitVec 8

/-- An unsigned 16-bit value, `u16` of 00_scope.md R5: a register, an address, an immediate word. -/
abbrev Word := BitVec 16

end Sys2Proof
end

