-- ==== Sys2Proof/Config.lean ====
section
/-! DEFINITION. The parameters of 00_scope.md R4 that say how large the machine is and what reset leaves, each at the
value R4 gives it. The parameters of the encoding (OPC_*, GPR_INDEX, SREG_INDEX, R8_MAP, EA_RESOLVED) stand in
Machine/Numbering.lean and EA_TABLE in Machine/Operands.lean. -/

namespace Sys2Proof

/-- MEM_SIZE: the number of bytes of memory, fixed by the source (10_state.md R21). -/
def Config.memSize : Nat := 65536

/-- RESET_REG: the value of each of the 14 registers after reset (10_state.md R10).
DESIGN CHOICE of the spec (D13, log 1); unsafe: the source gives no reset value for any register. -/
def Config.resetReg : Word := 0x0000

/-- RESET_PC: the program counter after reset (10_state.md R18).
DESIGN CHOICE of the spec (D13, log 1); unsafe: the source gives no start address. -/
def Config.resetPc : Word := 0x0000

/-- ICOUNT_WIDTH: the width of the instruction counter (10_state.md R25).
DESIGN CHOICE of the spec (D18, log 13); unsafe: the source gives no width. -/
abbrev Config.icountWidth : Nat := 64

/-- A set of (addressing-mode class, r/m) pairs that a decoder resolves: what EA_RESOLVED of 00_scope.md R4 is. -/
abbrev Config.AddressingSet := List (BitVec 2 × BitVec 3)

end Sys2Proof
end

