-- ==== Sys2Proof/Syntax.lean ====
section
/-! DEFINITION. The registers by name, the register/memory operand of a ModRM instruction, and `Instr`, one
constructor per row of spec/opcode_table.json. -/

namespace Sys2Proof

/-- The eight general registers (10_state.md R11). -/
inductive Gpr where
  | ax | cx | dx | bx | sp | bp | si | di
deriving DecidableEq, Repr

/-- The six segment registers (10_state.md R13). -/
inductive SReg where
  | es | cs | ss | ds | fs | gs
deriving DecidableEq, Repr

/-- The fourteen 16-bit registers, the general ones and the segment ones (10_state.md R12). -/
inductive Reg16 where
  | gpr (g : Gpr)
  | sreg (s : SReg)
deriving DecidableEq, Repr

/-- The eight 8-bit halves of AX, CX, DX and BX (10_state.md R16). -/
inductive Reg8 where
  | al | cl | dl | bl | ah | ch | dh | bh
deriving DecidableEq, Repr

/-- Which half of a 16-bit register an 8-bit access names, the `which_half` of 10_state.md R16. -/
inductive Half where
  | low | high
deriving DecidableEq, Repr

/-- The eight base/index combinations of 40_operand_decoder.md R108. -/
inductive Base where
  | bxSi | bxDi | bpSi | bpDi | si | di | bp | bx
deriving DecidableEq, Repr

/-- The register/memory operand as the instruction bytes give it: the addressing-mode class with what follows the
ModRM byte (40_operand_decoder.md R106, 44_mov_sreg.md R193). -/
inductive RmOperand where
  /-- class 3: a general register -/
  | reg (g : Gpr)
  /-- class 0, any r/m but 6: memory at the base/index sum -/
  | base (b : Base)
  /-- class 0 with r/m = 6: memory at the 16-bit address that follows -/
  | direct (addr : Word)
  /-- class 1: memory at the base/index sum plus a sign-extended byte -/
  | disp8 (b : Base) (d : Byte)
  /-- class 2: memory at the base/index sum plus a word -/
  | disp16 (b : Base) (d : Word)
deriving DecidableEq, Repr

/-- The nineteen instructions (30_encoding.md R79 to R83). -/
inductive Instr where
  /-- `MOV AL, imm8` (42_mov_r8_imm8.md R151) -/
  | movAL (imm : Byte)
  /-- `MOV CL, imm8` (42_mov_r8_imm8.md R152) -/
  | movCL (imm : Byte)
  /-- `MOV DL, imm8` (42_mov_r8_imm8.md R153) -/
  | movDL (imm : Byte)
  /-- `MOV BL, imm8` (42_mov_r8_imm8.md R154) -/
  | movBL (imm : Byte)
  /-- `MOV AH, imm8` (42_mov_r8_imm8.md R155) -/
  | movAH (imm : Byte)
  /-- `MOV CH, imm8` (42_mov_r8_imm8.md R156) -/
  | movCH (imm : Byte)
  /-- `MOV DH, imm8` (42_mov_r8_imm8.md R157) -/
  | movDH (imm : Byte)
  /-- `MOV BH, imm8` (42_mov_r8_imm8.md R158) -/
  | movBH (imm : Byte)
  /-- `MOV AX, imm16` (43_mov_r16_imm16.md R171) -/
  | movAX (imm : Word)
  /-- `MOV CX, imm16` (43_mov_r16_imm16.md R172) -/
  | movCX (imm : Word)
  /-- `MOV DX, imm16` (43_mov_r16_imm16.md R173) -/
  | movDX (imm : Word)
  /-- `MOV BX, imm16` (43_mov_r16_imm16.md R174) -/
  | movBX (imm : Word)
  /-- `MOV SP, imm16` (43_mov_r16_imm16.md R175) -/
  | movSP (imm : Word)
  /-- `MOV BP, imm16` (43_mov_r16_imm16.md R176) -/
  | movBP (imm : Word)
  /-- `MOV SI, imm16` (43_mov_r16_imm16.md R177) -/
  | movSI (imm : Word)
  /-- `MOV DI, imm16` (43_mov_r16_imm16.md R178) -/
  | movDI (imm : Word)
  /-- `MOV r/m16, Sreg` (44_mov_sreg.md R191) -/
  | movRm16Sreg (dst : RmOperand) (src : SReg)
  /-- `MOV Sreg, r/m16` (44_mov_sreg.md R192) -/
  | movSregRm16 (dst : SReg) (src : RmOperand)
  /-- `INT imm8` (45_int.md R210) -/
  | intImm8 (vector : Byte)
deriving DecidableEq, Repr

end Sys2Proof
end

