-- ==== Sys2Proof/Machine/Numbering.lean ====
section
/-! DEFINITION. The numbers of the encoding and the bit-field helpers: the opcode bytes, which number names which
register, half and base/index combination, concatenation, byte lanes and sign extension.

The opcode bytes, the numberings and the places of the ModRM fields are PRESUMED by the spec from the x86 family
(92_eei_decisions.md D1 to D4, 93_implementation_defined.md G1 to G4; log 6); unsafe: a wrong number makes false
claims about encodings provable. -/

namespace Sys2Proof

/-- `{hi, lo}` (00_scope.md R5): the low byte in bits 7:0. -/
def concatBytes (hi lo : Byte) : Word := hi ++ lo

/-- `w[7:0]`. -/
def lowByte (w : Word) : Byte := w.extractLsb' 0 8

/-- `w[15:8]`. -/
def highByte (w : Word) : Byte := w.extractLsb' 8 8

/-- `sext_16(b)` (00_scope.md R6). -/
def sext16 (b : Byte) : Word := if b.msb then concatBytes 0xFF b else concatBytes 0x00 b

/-- OPC_MOV_R8_IMM8: the first of the eight opcode bytes; the half's number is added (30_encoding.md R79). -/
def opcMovR8Imm8 : Byte := 0xB0

/-- OPC_MOV_R16_IMM16: the first of the eight opcode bytes; the register's number is added (30_encoding.md R80). -/
def opcMovR16Imm16 : Byte := 0xB8

/-- OPC_MOV_RM16_SREG (30_encoding.md R81). -/
def opcMovRm16Sreg : Byte := 0x8C

/-- OPC_MOV_SREG_RM16 (30_encoding.md R82). -/
def opcMovSregRm16 : Byte := 0x8E

/-- OPC_INT_IMM8 (30_encoding.md R83). -/
def opcIntImm8 : Byte := 0xCD

/-- EA_RESOLVED at its default, all 24 memory pairs (40_operand_decoder.md R116).
DESIGN CHOICE of the spec (D5, log 7); unsafe: an implementation with fewer pairs faults where this one goes on. -/
def eaResolved : Config.AddressingSet :=
  [0, 1, 2].flatMap fun mod => [0, 1, 2, 3, 4, 5, 6, 7].map fun rm => (mod, rm)

/-- GPR_INDEX: the index of a general register (10_state.md R11). -/
def Gpr.number : Gpr → BitVec 3
  | .ax => 0
  | .cx => 1
  | .dx => 2
  | .bx => 3
  | .sp => 4
  | .bp => 5
  | .si => 6
  | .di => 7

/-- The general register an index names (10_state.md R11). -/
def Gpr.ofNumber (n : BitVec 3) : Gpr :=
  match n with
  | 0 => .ax
  | 1 => .cx
  | 2 => .dx
  | 3 => .bx
  | 4 => .sp
  | 5 => .bp
  | 6 => .si
  | _ => .di

/-- SREG_INDEX: the selector of a segment register (10_state.md R13). -/
def SReg.selector : SReg → BitVec 3
  | .es => 0
  | .cs => 1
  | .ss => 2
  | .ds => 3
  | .fs => 4
  | .gs => 5

/-- The segment register a selector names; 6 and 7 name none (10_state.md R13). -/
def SReg.ofSelector (n : BitVec 3) : Option SReg :=
  match n with
  | 0 => some .es
  | 1 => some .cs
  | 2 => some .ss
  | 3 => some .ds
  | 4 => some .fs
  | 5 => some .gs
  | _ => none

/-- The unified index 0 to 13 (10_state.md R12). -/
def Reg16.index : Reg16 → Nat
  | .gpr g => g.number.toNat
  | .sreg s => 8 + s.selector.toNat

/-- The register a unified index names; 14 and above name none (10_state.md R12). -/
def Reg16.ofIndex (i : Nat) : Option Reg16 :=
  if i < 8 then some (.gpr (Gpr.ofNumber (BitVec.ofNat 3 i)))
  else if i < 14 then (SReg.ofSelector (BitVec.ofNat 3 (i - 8))).map .sreg
  else none

/-- R8_MAP: the 3-bit number of a half (10_state.md R16). -/
def Reg8.number : Reg8 → BitVec 3
  | .al => 0
  | .cl => 1
  | .dl => 2
  | .bl => 3
  | .ah => 4
  | .ch => 5
  | .dh => 6
  | .bh => 7

/-- The half a 3-bit number names (10_state.md R16). -/
def Reg8.ofNumber (n : BitVec 3) : Reg8 :=
  match n with
  | 0 => .al
  | 1 => .cl
  | 2 => .dl
  | 3 => .bl
  | 4 => .ah
  | 5 => .ch
  | 6 => .dh
  | _ => .bh

/-- The register a half belongs to, the one of index `n & 3` (10_state.md R16). -/
def Reg8.owner (h : Reg8) : Gpr := Gpr.ofNumber (h.number &&& 3)

/-- Which half of its register it is, by `n[2]` (10_state.md R16). -/
def Reg8.half (h : Reg8) : Half := if h.number[2] then .high else .low

/-- The r/m number of a base/index combination (40_operand_decoder.md R108). -/
def Base.number : Base → BitVec 3
  | .bxSi => 0
  | .bxDi => 1
  | .bpSi => 2
  | .bpDi => 3
  | .si => 4
  | .di => 5
  | .bp => 6
  | .bx => 7

/-- The base/index combination an r/m number selects (40_operand_decoder.md R108). -/
def Base.ofNumber (n : BitVec 3) : Base :=
  match n with
  | 0 => .bxSi
  | 1 => .bxDi
  | 2 => .bpSi
  | 3 => .bpDi
  | 4 => .si
  | 5 => .di
  | 6 => .bp
  | _ => .bx

/-- The `mod` field of a ModRM byte, bits 7:6 (30_encoding.md R72). -/
def modField (m : Byte) : BitVec 2 := m.extractLsb' 6 2

/-- The `reg` field of a ModRM byte, bits 5:3 (30_encoding.md R72). -/
def regField (m : Byte) : BitVec 3 := m.extractLsb' 3 3

/-- The `rm` field of a ModRM byte, bits 2:0 (30_encoding.md R72). -/
def rmField (m : Byte) : BitVec 3 := m.extractLsb' 0 3

/-- The ModRM byte of three fields (30_encoding.md R72). -/
def modRmByte (mod : BitVec 2) (reg rm : BitVec 3) : Byte := mod ++ reg ++ rm

end Sys2Proof
end

