-- ==== Sys2Proof/WellFormed.lean ====
section
/-! DEFINITION. Which terms of `Instr` some sequence of bytes encodes. Two checks, both on the register/memory
operand: class 0 with r/m = 6 is the direct address, so `[BP]` without a displacement has no encoding
(40_operand_decoder.md R109); and the pair (class, r/m) must be one the decoder resolves (R116). -/

namespace Sys2Proof

/-- The operand has an encoding, and `resolved` holds its (class, r/m) pair. Class 3 is never looked up
(40_operand_decoder.md R116: "mod != 3 and"). -/
def RmOperand.wellFormedWith (resolved : Config.AddressingSet) : RmOperand → Bool
  | .reg _ => true
  | .base b => b != .bp && resolved.contains (0, b.number)
  | .direct _ => resolved.contains (0, 6)
  | .disp8 b _ => resolved.contains (1, b.number)
  | .disp16 b _ => resolved.contains (2, b.number)

/-- The instruction has an encoding that a decoder with this set of resolved pairs reads. -/
def Instr.wellFormedWith (resolved : Config.AddressingSet) : Instr → Bool
  | .movAL _ => true
  | .movCL _ => true
  | .movDL _ => true
  | .movBL _ => true
  | .movAH _ => true
  | .movCH _ => true
  | .movDH _ => true
  | .movBH _ => true
  | .movAX _ => true
  | .movCX _ => true
  | .movDX _ => true
  | .movBX _ => true
  | .movSP _ => true
  | .movBP _ => true
  | .movSI _ => true
  | .movDI _ => true
  | .movRm16Sreg dst _ => dst.wellFormedWith resolved
  | .movSregRm16 _ src => src.wellFormedWith resolved
  | .intImm8 _ => true

/-- Well-formed under the default EA_RESOLVED. -/
def Instr.wellFormed (i : Instr) : Bool := i.wellFormedWith eaResolved

end Sys2Proof
end

