-- ==== Sys2Proof/Decode.lean ====
section
/-! DEFINITION. The decoder, total on any bytes and rejecting by name, and after it the encoder written from the same
tables (30_encoding.md, 40_operand_decoder.md).

The decoder reads a list of bytes, the instruction stream from the opcode byte on, and answers the instruction and
the bytes after it. Register numbers and opcode values stand in Machine/Numbering.lean. -/

namespace Sys2Proof

/-- Why bytes are no instruction. -/
inductive DecodeError where
  /-- the opcode byte is one of the 237 of 30_encoding.md R84 -/
  | unrecognizedOpcode (op : Byte)
  /-- 0x8C or 0x8E with a `reg` field of 6 or 7 (40_operand_decoder.md R115) -/
  | invalidSegmentSelector (modrm : Byte)
  /-- 0x8C or 0x8E with a memory form outside the set of resolved pairs (40_operand_decoder.md R116) -/
  | unresolvedAddressing (modrm : Byte)
  /-- the list of bytes ends inside the instruction; the machine, which always has four bytes to read, never sees it -/
  | truncated
deriving DecidableEq, Repr

/-- What an opcode byte selects (41_dispatch.md R130). -/
inductive OpClass where
  | movR8Imm8 (h : Reg8)
  | movR16Imm16 (g : Gpr)
  | movRm16Sreg
  | movSregRm16
  | intImm8
deriving DecidableEq, Repr

/-- The total dispatch over the 256 opcode bytes (41_dispatch.md R130); `none` is the unrecognized opcode of R131.
The register number is in bits 2:0 and bits 7:3 select the two immediate families (30_encoding.md R71, R73). -/
def dispatchOpcode (op : Byte) : Option OpClass :=
  if op.extractLsb' 3 5 = opcMovR8Imm8.extractLsb' 3 5 then
    some (.movR8Imm8 (Reg8.ofNumber (op.extractLsb' 0 3)))
  else if op.extractLsb' 3 5 = opcMovR16Imm16.extractLsb' 3 5 then
    some (.movR16Imm16 (Gpr.ofNumber (op.extractLsb' 0 3)))
  else if op = opcMovRm16Sreg then some .movRm16Sreg
  else if op = opcMovSregRm16 then some .movSregRm16
  else if op = opcIntImm8 then some .intImm8
  else none

/-- The instruction that moves an immediate byte into a half (30_encoding.md R79). -/
def instrMovR8 (h : Reg8) (imm : Byte) : Instr :=
  match h with
  | .al => .movAL imm
  | .cl => .movCL imm
  | .dl => .movDL imm
  | .bl => .movBL imm
  | .ah => .movAH imm
  | .ch => .movCH imm
  | .dh => .movDH imm
  | .bh => .movBH imm

/-- The instruction that moves an immediate word into a general register (30_encoding.md R80). -/
def instrMovR16 (g : Gpr) (imm : Word) : Instr :=
  match g with
  | .ax => .movAX imm
  | .cx => .movCX imm
  | .dx => .movDX imm
  | .bx => .movBX imm
  | .sp => .movSP imm
  | .bp => .movBP imm
  | .si => .movSI imm
  | .di => .movDI imm

/-- One byte off the stream. -/
def take8 : List Byte → Except DecodeError (Byte × List Byte)
  | [] => .error .truncated
  | b :: rest => .ok (b, rest)

/-- One word off the stream, low byte first (20_memory.md R43). -/
def take16 : List Byte → Except DecodeError (Word × List Byte)
  | lo :: hi :: rest => .ok (concatBytes hi lo, rest)
  | _ => .error .truncated

/-- `CheckModRM` (40_operand_decoder.md R116): the selector first, then the addressing pair. It answers the segment
register of the `reg` field. -/
def checkModRm (resolved : Config.AddressingSet) (m : Byte) : Except DecodeError SReg :=
  match SReg.ofSelector (regField m) with
  | none => .error (.invalidSegmentSelector m)
  | some s =>
    if modField m ≠ 3 ∧ ¬ resolved.contains (modField m, rmField m) then .error (.unresolvedAddressing m)
    else .ok s

/-- The register/memory operand and its displacement or direct address (40_operand_decoder.md R106, R109). -/
def takeRm (mod : BitVec 2) (rm : BitVec 3) (bytes : List Byte) : Except DecodeError (RmOperand × List Byte) :=
  match mod with
  | 0 =>
    if rm = 6 then
      match take16 bytes with
      | .ok (a, rest) => .ok (.direct a, rest)
      | .error e => .error e
    else .ok (.base (Base.ofNumber rm), bytes)
  | 1 =>
    match take8 bytes with
    | .ok (d, rest) => .ok (.disp8 (Base.ofNumber rm) d, rest)
    | .error e => .error e
  | 2 =>
    match take16 bytes with
    | .ok (d, rest) => .ok (.disp16 (Base.ofNumber rm) d, rest)
    | .error e => .error e
  | _ => .ok (.reg (Gpr.ofNumber rm), bytes)

/-- The ModRM byte and what follows it, for the two opcodes that have one: both read the same bytes in the same order
(40_operand_decoder.md R111). -/
def takeModRm (resolved : Config.AddressingSet) (bytes : List Byte) :
    Except DecodeError (SReg × RmOperand × List Byte) :=
  match take8 bytes with
  | .error e => .error e
  | .ok (m, rest) =>
    match checkModRm resolved m with
    | .error e => .error e
    | .ok s =>
      match takeRm (modField m) (rmField m) rest with
      | .ok (rm, rest') => .ok (s, rm, rest')
      | .error e => .error e

/-- The decoder for a given set of resolved addressing pairs. -/
def decodeWith (resolved : Config.AddressingSet) (bytes : List Byte) : Except DecodeError (Instr × List Byte) :=
  match take8 bytes with
  | .error e => .error e
  | .ok (op, rest) =>
    match dispatchOpcode op with
    | none => .error (.unrecognizedOpcode op)
    | some (.movR8Imm8 h) =>
      match take8 rest with
      | .ok (b, rest') => .ok (instrMovR8 h b, rest')
      | .error e => .error e
    | some (.movR16Imm16 g) =>
      match take16 rest with
      | .ok (w, rest') => .ok (instrMovR16 g w, rest')
      | .error e => .error e
    | some .movRm16Sreg =>
      match takeModRm resolved rest with
      | .ok (s, rm, rest') => .ok (.movRm16Sreg rm s, rest')
      | .error e => .error e
    | some .movSregRm16 =>
      match takeModRm resolved rest with
      | .ok (s, rm, rest') => .ok (.movSregRm16 s rm, rest')
      | .error e => .error e
    | some .intImm8 =>
      match take8 rest with
      | .ok (v, rest') => .ok (.intImm8 v, rest')
      | .error e => .error e

/-- The decoder of the machine, under the default EA_RESOLVED. -/
def decode (bytes : List Byte) : Except DecodeError (Instr × List Byte) := decodeWith eaResolved bytes

/-- How many bytes the decoder has consumed when it rejects (30_encoding.md R74): the opcode byte alone, or the opcode
and the ModRM byte (40_operand_decoder.md R115, R116). -/
def DecodeError.consumed : DecodeError → Nat
  | .unrecognizedOpcode _ => 1
  | .invalidSegmentSelector _ => 2
  | .unresolvedAddressing _ => 2
  | .truncated => 0

/-- The bytes a word is encoded by, low byte first (20_memory.md R43). -/
def encodeWord (w : Word) : List Byte := [lowByte w, highByte w]

/-- `mod` and `rm` of a register/memory operand (44_mov_sreg.md R193). -/
def RmOperand.fields : RmOperand → BitVec 2 × BitVec 3
  | .reg g => (3, g.number)
  | .base b => (0, b.number)
  | .direct _ => (0, 6)
  | .disp8 b _ => (1, b.number)
  | .disp16 b _ => (2, b.number)

/-- The bytes after the ModRM byte (44_mov_sreg.md R193). -/
def RmOperand.extraBytes : RmOperand → List Byte
  | .reg _ => []
  | .base _ => []
  | .direct a => encodeWord a
  | .disp8 _ d => [d]
  | .disp16 _ d => encodeWord d

/-- The ModRM byte with selector `s` and what follows it. -/
def encodeModRm (s : SReg) (rm : RmOperand) : List Byte :=
  modRmByte rm.fields.1 s.selector rm.fields.2 :: rm.extraBytes

/-- Format OP_IMM8 for a half (30_encoding.md R71, R79). -/
def encodeMovR8 (h : Reg8) (imm : Byte) : List Byte := [opcMovR8Imm8 + h.number.setWidth 8, imm]

/-- Format OP_IMM16 (30_encoding.md R71, R80). -/
def encodeMovR16 (g : Gpr) (imm : Word) : List Byte := (opcMovR16Imm16 + g.number.setWidth 8) :: encodeWord imm

/-- The encoder: the bytes of an instruction in ascending address order (30_encoding.md R70, R71). -/
def encode : Instr → List Byte
  | .movAL imm => encodeMovR8 .al imm
  | .movCL imm => encodeMovR8 .cl imm
  | .movDL imm => encodeMovR8 .dl imm
  | .movBL imm => encodeMovR8 .bl imm
  | .movAH imm => encodeMovR8 .ah imm
  | .movCH imm => encodeMovR8 .ch imm
  | .movDH imm => encodeMovR8 .dh imm
  | .movBH imm => encodeMovR8 .bh imm
  | .movAX imm => encodeMovR16 .ax imm
  | .movCX imm => encodeMovR16 .cx imm
  | .movDX imm => encodeMovR16 .dx imm
  | .movBX imm => encodeMovR16 .bx imm
  | .movSP imm => encodeMovR16 .sp imm
  | .movBP imm => encodeMovR16 .bp imm
  | .movSI imm => encodeMovR16 .si imm
  | .movDI imm => encodeMovR16 .di imm
  | .movRm16Sreg dst src => opcMovRm16Sreg :: encodeModRm src dst
  | .movSregRm16 dst src => opcMovSregRm16 :: encodeModRm dst src
  | .intImm8 v => [opcIntImm8, v]

/-- Length in bytes of an instruction with a ModRM byte (30_encoding.md R74). -/
def RmOperand.instrLength : RmOperand → Nat
  | .reg _ => 2
  | .base _ => 2
  | .direct _ => 4
  | .disp8 _ _ => 3
  | .disp16 _ _ => 4

/-- Length of an instruction in bytes (30_encoding.md R74). -/
def Instr.length : Instr → Nat
  | .movAL _ => 2
  | .movCL _ => 2
  | .movDL _ => 2
  | .movBL _ => 2
  | .movAH _ => 2
  | .movCH _ => 2
  | .movDH _ => 2
  | .movBH _ => 2
  | .movAX _ => 3
  | .movCX _ => 3
  | .movDX _ => 3
  | .movBX _ => 3
  | .movSP _ => 3
  | .movBP _ => 3
  | .movSI _ => 3
  | .movDI _ => 3
  | .movRm16Sreg dst _ => dst.instrLength
  | .movSregRm16 _ src => src.instrLength
  | .intImm8 _ => 2

/-- The bytes of an instruction whose bits are `w`, bit 0 the least significant bit of its first byte; every bit above
`nbits` is 0, up to the longest instruction of four bytes (30_encoding.md R75). -/
def tableBytes (nbits w : Nat) : List Byte :=
  (List.range (max 4 ((nbits + 7) / 8))).map fun k => BitVec.ofNat 8 ((w % 2 ^ nbits) / 2 ^ (8 * k))

/-- What the decoder reads from an instruction whose bits are `w`, numbered as spec/opcode_table.json numbers them. -/
def decodeTableWord (nbits w : Nat) : Option Instr :=
  match decode (tableBytes nbits w) with
  | .ok (i, _) => some i
  | .error _ => none

end Sys2Proof
end

