-- ==== Sys2Proof/Machine/State.lean ====
section
/-! DEFINITION. The state of the hardware (10_state.md R33) as plain data, the outcomes of a step (00_scope.md R9), the
reasons a step can stop, and the state after reset. -/

namespace Sys2Proof.Machine

/-- Failure kind 1, a decode fault, with what it reports; `opAddr` is the address of the step's opcode byte
(60_exceptions.md R222 to R224). -/
inductive DecodeFault where
  /-- the opcode byte is no instruction; raised by the dispatcher (41_dispatch.md R131) -/
  | unrecognizedOpcode (op : Byte) (opAddr : Word)
  /-- `reg` field 6 or 7 after 0x8C or 0x8E; raised by `CheckModRM` (40_operand_decoder.md R115) -/
  | invalidSegmentSelector (modrm : Byte) (opAddr : Word)
  /-- a memory form outside EA_RESOLVED; raised by `CheckModRM` (40_operand_decoder.md R116) -/
  | unresolvedAddressing (modrm : Byte) (opAddr : Word)
deriving DecidableEq, Repr

/-- The routines that check an operand contract (41_dispatch.md R133), and the register file's own (60_exceptions.md
R226). -/
inductive Routine where
  | movR8Imm8 | movR16Imm16 | movRM16Sreg | movSregRM16 | registerFile8
deriving DecidableEq, Repr

/-- The shape of an operand descriptor (60_exceptions.md R225). -/
inductive Shape where
  | imm8 | imm16 | reg | mem
deriving DecidableEq, Repr

/-- The three kinds of failure, kept apart (60_exceptions.md R220). -/
inductive Failure where
  /-- kind 1 -/
  | decodeFault (f : DecodeFault)
  /-- kind 2: a descriptor pair outside a routine's contract (60_exceptions.md R225, R226); no byte sequence reaches it -/
  | contractViolation (routine : Routine) (dst src : Shape) (opAddr : Word)
  /-- kind 3: reserved, no condition raises it (60_exceptions.md R227; D17, log 18) -/
  | fatalExecutionFault (opAddr : Word)
deriving DecidableEq, Repr

/-- The kind of a failure (60_exceptions.md R220). -/
inductive FailureKind where
  | decodeFault | contractViolation | fatalExecutionFault
deriving DecidableEq, Repr

/-- The report that accompanies a completed step (60_exceptions.md R228). -/
inductive Notice where
  | unimplementedInterrupt (vector : Byte) (opAddr : Word)
deriving DecidableEq, Repr

/-- How a step ends (00_scope.md R9): two completions and the failures. -/
inductive StepOutcome where
  | ok
  | okNotice (n : Notice)
  | failed (f : Failure)
deriving DecidableEq, Repr

/-- The fourteen 16-bit registers (10_state.md R10). The 8-bit halves are views of the first four (R16), read and
written through Machine/Ops.lean. -/
structure RegFile where
  ax : Word
  cx : Word
  dx : Word
  bx : Word
  sp : Word
  bp : Word
  si : Word
  di : Word
  es : Word
  cs : Word
  ss : Word
  ds : Word
  fs : Word
  gs : Word
deriving DecidableEq, Repr

/-- The complete state: the tuple of 10_state.md R33, and the model's own `report`. -/
structure State where
  /-- R16[0..13] (10_state.md R10) -/
  regs : RegFile
  /-- PC, the flat address of the next instruction byte (10_state.md R18) -/
  pc : Word
  /-- MEM (10_state.md R21): the bytes that differ from what an unlisted address reads as, addresses rising -/
  mem : List Host.Cell
  /-- the breakpoint set BP (10_state.md R24), addresses rising, no repeats -/
  breakpoints : List Word
  /-- ICOUNT, the total of steps performed (10_state.md R25) -/
  icount : BitVec Config.icountWidth
  /-- IMAGE_BASE, the base of the last image loaded (10_state.md R26) -/
  imageBase : Word
  /-- FATAL, the failure latch (10_state.md R27) -/
  fatal : Bool
  /-- The model's own: the outcome the latest step returned, none before the first step. `step()` returns it beside the
  state (41_dispatch.md R130). No step reads it (log 3). -/
  report : Option StepOutcome
deriving DecidableEq, Repr

/-- Why a step could stop the machine. Nothing does: every failure of the spec has its entry and its continuation
described (60_exceptions.md R230, R232), so it is a next state (log 4). -/
inductive Fault where
  /-- Raised by nobody. It keeps the type inhabited for an engine that would stop at a fatal execution fault, which this
  spec reserves and never raises (60_exceptions.md R227). Safe: a model that stopped there would only lose claims. -/
  | engineStopped (opAddr : Word)
deriving DecidableEq, Repr

/-- Why a step has no meaning. -/
inductive Refusal where
  /-- An instruction without a meaning yet, raised by its arm of `exec`. Safe: the model stops. No arm raises it. -/
  | notModelled (mnemonic : String)
  /-- Raised where the decoder says that its bytes end inside the instruction. Safe: the model stops. No step raises it:
  a step gives the decoder four bytes, and no instruction is longer (30_encoding.md R75). -/
  | instructionTruncated
deriving DecidableEq, Repr

/-- What a step answers. -/
abbrev Result := Host.Outcome State Fault Refusal

/-- Every register at RESET_REG (10_state.md R10). DESIGN CHOICE of the spec (D13, log 1); unsafe. -/
def RegFile.reset : RegFile :=
  { ax := Config.resetReg, cx := Config.resetReg, dx := Config.resetReg, bx := Config.resetReg,
    sp := Config.resetReg, bp := Config.resetReg, si := Config.resetReg, di := Config.resetReg,
    es := Config.resetReg, cs := Config.resetReg, ss := Config.resetReg, ds := Config.resetReg,
    fs := Config.resetReg, gs := Config.resetReg }

/-- The machine right after reset (70_reset_and_hazards.md R270). Memory is "zero-initialized at system start"
(10_state.md R21); the other values are the spec's DESIGN CHOICE (D13, D16, D18, D25; logs 1 and 2), and `report` is
the model's own (log 3); unsafe. -/
def State.reset : State :=
  { regs := RegFile.reset
    pc := Config.resetPc
    mem := []
    breakpoints := []
    icount := 0
    imageBase := 0x0000
    fatal := false
    report := none }

end Sys2Proof.Machine
end

