-- ==== Sys2Proof/Machine/Ops.lean ====
section
/-! DEFINITION. The named operations over memory, registers, the program counter and the debug unit; how a step
completes and how it fails. -/

namespace Sys2Proof.Machine

/-! Memory (20_memory.md) -/

/-- What an address that the list does not hold reads as: the reset contents of every byte (10_state.md R21). -/
def Memory.unlisted : Byte := 0x00

/-- The canonical form: addresses strictly rising and inside the space, and no entry equal to what an unlisted address
reads as. -/
abbrev Memory.wf (m : List Host.Cell) : Prop :=
  m.Pairwise (fun c d => c.1 < d.1) ∧ ∀ c ∈ m, c.1 < Config.memSize ∧ c.2 ≠ Memory.unlisted

/-- The byte at an address (20_memory.md R42). -/
def Memory.read : List Host.Cell → Nat → Byte
  | [], _ => Memory.unlisted
  | c :: m, k => if c.1 = k then c.2 else Memory.read m k

/-- The list without its entries for an address. -/
def Memory.erase (m : List Host.Cell) (k : Nat) : List Host.Cell := m.filter fun c => c.1 ≠ k

/-- The list with an entry put before the first greater address. -/
def Memory.insert : List Host.Cell → Nat → Byte → List Host.Cell
  | [], k, v => [(k, v)]
  | c :: m, k, v => if k < c.1 then (k, v) :: c :: m else c :: Memory.insert m k v

/-- Write one byte (20_memory.md R42). Writing what an unlisted address reads as removes the entry. -/
def Memory.write (m : List Host.Cell) (k : Nat) (v : Byte) : List Host.Cell :=
  if v = Memory.unlisted then Memory.erase m k else Memory.insert (Memory.erase m k) k v

/-- `load_block` on the memory alone: bytes that would fall at or beyond 65536 are dropped (20_memory.md R56). -/
def Memory.load : List Byte → Nat → List Host.Cell → List Host.Cell
  | [], _, m => m
  | b :: data, k, m => if k < Config.memSize then Memory.load data (k + 1) (Memory.write m k b) else m

/-- `MemRead(a, 1)` (20_memory.md R47). -/
def State.read8 (s : State) (a : Word) : Byte := Memory.read s.mem a.toNat

/-- `MemRead(a, 2)`: the high byte at `a +16 1` (20_memory.md R47). Little-endian for data is the spec's DESIGN CHOICE
(D8, log 10), and so is the wrap at 0xFFFF (D9, log 10); unsafe. -/
def State.read16 (s : State) (a : Word) : Word := concatBytes (s.read8 (a + 1)) (s.read8 a)

/-- The state with another memory. -/
def State.withMem (s : State) (m : List Host.Cell) : State := { s with mem := m }

/-- `MemWrite(a, 1, v)` (20_memory.md R48). -/
def State.write8 (s : State) (a : Word) (v : Byte) : State := s.withMem (Memory.write s.mem a.toNat v)

/-- `MemWrite(a, 2, w)`: low byte at `a`, high byte at `a +16 1` (20_memory.md R48). -/
def State.write16 (s : State) (a w : Word) : State := (s.write8 a (lowByte w)).write8 (a + 1) (highByte w)

/-- Bytes stored at ascending addresses modulo 65536, for placing an instruction where it is fetched. -/
def State.writeBytes (s : State) (a : Word) : List Byte → State
  | [] => s
  | b :: bs => (s.write8 a b).writeBytes (a + 1) bs

/-! Registers (10_state.md) -/

/-- `read16` of the register file (10_state.md R15). -/
def RegFile.get (r : RegFile) : Reg16 → Word
  | .gpr .ax => r.ax
  | .gpr .cx => r.cx
  | .gpr .dx => r.dx
  | .gpr .bx => r.bx
  | .gpr .sp => r.sp
  | .gpr .bp => r.bp
  | .gpr .si => r.si
  | .gpr .di => r.di
  | .sreg .es => r.es
  | .sreg .cs => r.cs
  | .sreg .ss => r.ss
  | .sreg .ds => r.ds
  | .sreg .fs => r.fs
  | .sreg .gs => r.gs

/-- `write16` of the register file: the whole register is replaced (10_state.md R15). -/
def RegFile.set (r : RegFile) (i : Reg16) (v : Word) : RegFile :=
  match i with
  | .gpr .ax => { r with ax := v }
  | .gpr .cx => { r with cx := v }
  | .gpr .dx => { r with dx := v }
  | .gpr .bx => { r with bx := v }
  | .gpr .sp => { r with sp := v }
  | .gpr .bp => { r with bp := v }
  | .gpr .si => { r with si := v }
  | .gpr .di => { r with di := v }
  | .sreg .es => { r with es := v }
  | .sreg .cs => { r with cs := v }
  | .sreg .ss => { r with ss := v }
  | .sreg .ds => { r with ds := v }
  | .sreg .fs => { r with fs := v }
  | .sreg .gs => { r with gs := v }

/-- A general register has 8-bit halves when its index is in the lower half of the index space (10_state.md R11). -/
def gprHasHalves (g : Gpr) : Bool := g.number.toNat < 4

/-- `read8(index, which_half)` of the register file; `none` is the contract violation on a register without halves
(10_state.md R16, R17). -/
def RegFile.get8 (r : RegFile) (g : Gpr) (half : Half) : Option Byte :=
  if gprHasHalves g then
    match half with
    | .low => some (lowByte (r.get (.gpr g)))
    | .high => some (highByte (r.get (.gpr g)))
  else none

/-- `write8(index, which_half, value)` of the register file: the other half is kept; `none` is the contract violation on
a register without halves (10_state.md R17). -/
def RegFile.set8 (r : RegFile) (g : Gpr) (half : Half) (b : Byte) : Option RegFile :=
  if gprHasHalves g then
    match half with
    | .low => some (r.set (.gpr g) (concatBytes (highByte (r.get (.gpr g))) b))
    | .high => some (r.set (.gpr g) (concatBytes b (lowByte (r.get (.gpr g)))))
  else none

/-- The state with another register file. -/
def State.withRegs (s : State) (r : RegFile) : State := { s with regs := r }

/-- `R16[i]` (10_state.md R15). -/
def State.reg (s : State) (i : Reg16) : Word := s.regs.get i

/-- `R16[i] <- v` (10_state.md R15). -/
def State.setReg (s : State) (i : Reg16) (v : Word) : State := s.withRegs (s.regs.set i v)

/-! The program counter and the fetch primitives (10_state.md R18 to R20, 40_operand_decoder.md) -/

/-- `PC <- v`. -/
def State.withPc (s : State) (v : Word) : State := { s with pc := v }

/-- `PC <- PC +16 n`, wrapping from 0xFFFF to 0x0000 (10_state.md R20; D10, log 11). -/
def State.advance (s : State) (n : Nat) : State := s.withPc (s.pc + BitVec.ofNat 16 n)

/-- `Fetch8()` (40_operand_decoder.md R100). -/
def State.fetch8 (s : State) : Byte × State := (s.read8 s.pc, s.advance 1)

/-- `Fetch16()` (40_operand_decoder.md R101). -/
def State.fetch16 (s : State) : Word × State := (concatBytes (s.read8 (s.pc + 1)) (s.read8 s.pc), s.advance 2)

/-- `FetchS8()` (40_operand_decoder.md R102). -/
def State.fetchS8 (s : State) : Word × State := (sext16 s.fetch8.1, s.fetch8.2)

/-- `FetchS16()` (40_operand_decoder.md R103). -/
def State.fetchS16 (s : State) : Word × State := s.fetch16

/-- `DecodeModRM()` (40_operand_decoder.md R104). -/
def State.fetchModRm (s : State) : (BitVec 2 × BitVec 3 × BitVec 3) × State :=
  ((modField s.fetch8.1, regField s.fetch8.1, rmField s.fetch8.1), s.fetch8.2)

/-- The four bytes from PC on, at ascending addresses modulo 65536: as many as the longest instruction has
(30_encoding.md R70, R75). Reading them has no effect (20_memory.md R47; log 16). -/
def fetchWindow (s : State) : List Byte :=
  [s.read8 s.pc, s.read8 (s.pc + 1), s.read8 (s.pc + 2), s.read8 (s.pc + 3)]

/-! How a step ends (60_exceptions.md) -/

/-- The step's outcome goes to the caller of `step()` (41_dispatch.md R130; log 3). -/
def State.finish (s : State) (o : StepOutcome) : State := { s with report := some o }

/-- The step completes with `Ok` (00_scope.md R9). -/
def State.complete (s : State) : State := s.finish .ok

/-- `notice N(info)`: the step completes and carries a report (60_exceptions.md R228). -/
def State.notice (s : State) (n : Notice) : State := s.finish (.okNotice n)

/-- `raise K(info)`: the step ends with the failure. Nothing is saved, there is no vector and no handler, and PC stays
where the bytes fetched so far have brought it (60_exceptions.md R230, R231). -/
def State.raise (s : State) (f : Failure) : State := s.finish (.failed f)

/-- The failure that a rejection by the decoder is, for a step whose opcode byte is at `opAddr`; a list of bytes that
ends too early is none. -/
def decodeFailure (e : DecodeError) (opAddr : Word) : Option Failure :=
  match e with
  | .unrecognizedOpcode op => some (.decodeFault (.unrecognizedOpcode op opAddr))
  | .invalidSegmentSelector m => some (.decodeFault (.invalidSegmentSelector m opAddr))
  | .unresolvedAddressing m => some (.decodeFault (.unresolvedAddressing m opAddr))
  | .truncated => none

/-- Taking a decode fault: PC passes the bytes consumed and the failure is raised (60_exceptions.md R222 to R224, R230). -/
def takeDecodeError (e : DecodeError) (s : State) : Result :=
  match decodeFailure e s.pc with
  | some f => .next ((s.advance e.consumed).raise f)
  | none => .refused .instructionTruncated

/-- The outcome is a failure, "sets FATAL: yes" in the table of 60_exceptions.md R221. -/
def StepOutcome.isFailure : StepOutcome → Bool
  | .ok => false
  | .okNotice _ => false
  | .failed _ => true

/-- The failure of an outcome that is one. -/
def StepOutcome.failure? : StepOutcome → Option Failure
  | .ok => none
  | .okNotice _ => none
  | .failed f => some f

/-- The notices of an outcome. -/
def StepOutcome.notices : StepOutcome → List Notice
  | .ok => []
  | .okNotice n => [n]
  | .failed _ => []

/-- The kind of a failure (60_exceptions.md R220, R221). -/
def Failure.kind : Failure → FailureKind
  | .decodeFault _ => .decodeFault
  | .contractViolation _ _ _ _ => .contractViolation
  | .fatalExecutionFault _ => .fatalExecutionFault

/-- The code of an outcome, for reference: no state holds it (60_exceptions.md R221). -/
def StepOutcome.code : StepOutcome → Nat
  | .ok => 0x00
  | .okNotice (.unimplementedInterrupt _ _) => 0x01
  | .failed (.decodeFault (.unrecognizedOpcode _ _)) => 0x10
  | .failed (.decodeFault (.invalidSegmentSelector _ _)) => 0x11
  | .failed (.decodeFault (.unresolvedAddressing _ _)) => 0x12
  | .failed (.contractViolation _ _ _ _) => 0x20
  | .failed (.fatalExecutionFault _) => 0x30

/-- The latest step ended in a failure. -/
def State.failed (s : State) : Bool :=
  match s.report with
  | some o => o.isFailure
  | none => false

/-! What the controller does around a step (60_exceptions.md R244) -/

/-- `ICOUNT <- (ICOUNT + 1) mod 2^64` (60_exceptions.md R244). -/
def State.countStep (s : State) : State := { s with icount := s.icount + 1 }

/-- "if o is a failure then FATAL <- 1" (60_exceptions.md R244); nothing sets it back (10_state.md R27). -/
def State.latchFailure (s : State) : State := { s with fatal := s.fatal || s.failed }

/-- The end of `do_step()`: the latch follows the outcome (60_exceptions.md R244). -/
def afterStep : Result → Result
  | .next t => .next t.latchFailure
  | .fault r => .fault r
  | .refused r => .refused r

/-! The debug unit's own operations (60_exceptions.md R241 to R243, 70_reset_and_hazards.md R276 to R278) -/

/-- The canonical form of the breakpoint set: addresses strictly rising (10_state.md R24: "duplicates impossible"). -/
abbrev Breakpoints.wf (l : List Word) : Prop := l.Pairwise (· < ·)

/-- A set with one more member, in rising order. -/
def Breakpoints.insert : List Word → Word → List Word
  | [], a => [a]
  | b :: l, a => if a = b then b :: l else if a < b then a :: b :: l else b :: Breakpoints.insert l a

/-- `add(addr)` (60_exceptions.md R241). -/
def State.addBreakpoint (s : State) (a : Word) : State := { s with breakpoints := Breakpoints.insert s.breakpoints a }

/-- `remove(addr)` (60_exceptions.md R242). -/
def State.removeBreakpoint (s : State) (a : Word) : State := { s with breakpoints := s.breakpoints.filter (· ≠ a) }

/-- `clear_all()` (60_exceptions.md R243). -/
def State.clearBreakpoints (s : State) : State := { s with breakpoints := [] }

/-- `load_block(data, base_offset)` (20_memory.md R56). -/
def State.loadBlock (s : State) (data : List Byte) (base : Word) : State :=
  s.withMem (Memory.load data base.toNat s.mem)

/-- `load_image(data, base_offset)` (70_reset_and_hazards.md R277; D25, log 25). -/
def State.loadImage (s : State) (data : List Byte) (base : Word) : State :=
  { (s.loadBlock data base).withPc base with imageBase := base }

/-- `reset_pc()` (70_reset_and_hazards.md R278). -/
def State.resetPc (s : State) : State := s.withPc s.imageBase

end Sys2Proof.Machine
end

