-- ==== Sys2Proof/Machine/Interrupt.lean ====
section
/-! DEFINITION. The software interrupt, a stub that reports its vector, opcode 0xCD (45_int.md). -/

namespace Sys2Proof.Machine

/-- `IntImm8` (45_int.md R210), in a state whose PC has passed the instruction. -/
def routineIntImm8 (opAddr : Word) (vector : Byte) (s : State) : State :=
  s.notice (.unimplementedInterrupt vector opAddr)

/-- `INT imm8`: the step completes and carries the notice; nothing but PC changes (45_int.md R210, R211). That the
notice is a completion is the spec's DESIGN CHOICE (D14, log 12); unsafe. -/
def execIntImm8 (vector : Byte) (s : State) : Result := .next (routineIntImm8 s.pc vector (s.advance 2))

end Sys2Proof.Machine
end

