-- ==== Sys2Proof/Machine/Operands.lean ====
section
/-! DEFINITION. Operand descriptors, their contracts, effective addresses, and the one 16-bit move that the word
families share (40_operand_decoder.md, 41_dispatch.md). There is no flag to compute (10_state.md R30). -/

namespace Sys2Proof.Machine

/-- An operand descriptor (41_dispatch.md R132). The variant `Reg` of the spec holds a unified index or, in the 8-bit
family, a half's number; the model keeps the two payloads apart as `reg` and `half` (DESIGN CHOICE, log 17; safe). -/
inductive Operand where
  | imm8 (b : Byte)
  | imm16 (w : Word)
  | reg (r : Reg16)
  | half (h : Reg8)
  | mem (a : Word)
deriving DecidableEq, Repr

/-- The shape a contract violation reports (60_exceptions.md R225). -/
def Operand.shape : Operand → Shape
  | .imm8 _ => .imm8
  | .imm16 _ => .imm16
  | .reg _ => .reg
  | .half _ => .reg
  | .mem _ => .mem

/-- The legal (destination, source) shapes of each routine (41_dispatch.md R133). `registerFile8` takes no pair. -/
def Routine.accepts (r : Routine) (dst src : Operand) : Bool :=
  match r, dst, src with
  | .movR8Imm8, .half _, .imm8 _ => true
  | .movR16Imm16, .reg (.gpr _), .imm16 _ => true
  | .movRM16Sreg, .reg (.gpr _), .reg (.sreg _) => true
  | .movRM16Sreg, .mem _, .reg (.sreg _) => true
  | .movSregRM16, .reg (.sreg _), .reg (.gpr _) => true
  | .movSregRM16, .reg (.sreg _), .mem _ => true
  | _, _, _ => false

/-- `ReadOperand16(d)` (41_dispatch.md R134); `none` where the descriptor is no 16-bit source. -/
def State.readOperand16 (s : State) : Operand → Option Word
  | .imm8 _ => none
  | .imm16 w => some w
  | .reg r => some (s.reg r)
  | .half _ => none
  | .mem a => some (s.read16 a)

/-- `WriteOperand16(d, v)` (41_dispatch.md R135); `none` where the descriptor is no 16-bit destination. -/
def State.writeOperand16 (s : State) (d : Operand) (v : Word) : Option State :=
  match d with
  | .imm8 _ => none
  | .imm16 _ => none
  | .reg r => some (s.setReg r v)
  | .half _ => none
  | .mem a => some (s.write16 a v)

/-- `BaseIndex(rm)` (40_operand_decoder.md R108): EA_TABLE at its default. No segment register takes part (20_memory.md
R40), and sums are modulo 65536 (D11, log 11). -/
def Base.address (b : Base) (s : State) : Word :=
  match b with
  | .bxSi => s.reg (.gpr .bx) + s.reg (.gpr .si)
  | .bxDi => s.reg (.gpr .bx) + s.reg (.gpr .di)
  | .bpSi => s.reg (.gpr .bp) + s.reg (.gpr .si)
  | .bpDi => s.reg (.gpr .bp) + s.reg (.gpr .di)
  | .si => s.reg (.gpr .si)
  | .di => s.reg (.gpr .di)
  | .bp => s.reg (.gpr .bp)
  | .bx => s.reg (.gpr .bx)

/-- The effective address of a memory form; `none` for class 3 (40_operand_decoder.md R107, R110). -/
def effectiveAddress (rm : RmOperand) (s : State) : Option Word :=
  match rm with
  | .reg _ => none
  | .base b => some (Base.address b s)
  | .direct a => some a
  | .disp8 b d => some (Base.address b s + sext16 d)
  | .disp16 b d => some (Base.address b s + d)

/-- The descriptor of the register/memory operand (40_operand_decoder.md R106). -/
def resolveRm (rm : RmOperand) (s : State) : Operand :=
  match rm with
  | .reg g => .reg (.gpr g)
  | .base b => .mem (Base.address b s)
  | .direct a => .mem a
  | .disp8 b d => .mem (Base.address b s + sext16 d)
  | .disp16 b d => .mem (Base.address b s + d)

/-- The 16-bit move behind three routines, in a state whose PC has passed the instruction: contract, then the source is
read, then the destination is written (41_dispatch.md R133, R137). A pair outside the contract is a contract violation
that writes nothing. -/
def moveWord (r : Routine) (opAddr : Word) (dst src : Operand) (s : State) : State :=
  let violation := s.raise (.contractViolation r dst.shape src.shape opAddr)
  if r.accepts dst src then
    match s.readOperand16 src with
    | none => violation
    | some v =>
      match s.writeOperand16 dst v with
      | none => violation
      | some t => t.complete
  else violation

end Sys2Proof.Machine
end

