-- ==== Sys2Proof/Machine/MovImm16.lean ====
section
/-! DEFINITION. Move immediate word into a 16-bit general register, opcodes 0xB8 to 0xBF (43_mov_r16_imm16.md). -/

namespace Sys2Proof.Machine

/-- `MovR16Imm16` (43_mov_r16_imm16.md R170), in a state whose PC has passed the instruction. -/
def routineMovR16Imm16 (opAddr : Word) (dst src : Operand) (s : State) : State :=
  moveWord .movR16Imm16 opAddr dst src s

/-- An instruction of the family, from its opcode byte on: three bytes are consumed (43_mov_r16_imm16.md R170). -/
def moveImm16 (g : Gpr) (imm : Word) (s : State) : State :=
  routineMovR16Imm16 s.pc (.reg (.gpr g)) (.imm16 imm) (s.advance 3)

/-- `MOV AX, imm16` (43_mov_r16_imm16.md R171). -/
def execMovAX (imm : Word) (s : State) : Result := .next (moveImm16 .ax imm s)

/-- `MOV CX, imm16` (43_mov_r16_imm16.md R172). -/
def execMovCX (imm : Word) (s : State) : Result := .next (moveImm16 .cx imm s)

/-- `MOV DX, imm16` (43_mov_r16_imm16.md R173). -/
def execMovDX (imm : Word) (s : State) : Result := .next (moveImm16 .dx imm s)

/-- `MOV BX, imm16` (43_mov_r16_imm16.md R174). -/
def execMovBX (imm : Word) (s : State) : Result := .next (moveImm16 .bx imm s)

/-- `MOV SP, imm16` (43_mov_r16_imm16.md R175). -/
def execMovSP (imm : Word) (s : State) : Result := .next (moveImm16 .sp imm s)

/-- `MOV BP, imm16` (43_mov_r16_imm16.md R176). -/
def execMovBP (imm : Word) (s : State) : Result := .next (moveImm16 .bp imm s)

/-- `MOV SI, imm16` (43_mov_r16_imm16.md R177). -/
def execMovSI (imm : Word) (s : State) : Result := .next (moveImm16 .si imm s)

/-- `MOV DI, imm16` (43_mov_r16_imm16.md R178). -/
def execMovDI (imm : Word) (s : State) : Result := .next (moveImm16 .di imm s)

end Sys2Proof.Machine
end

