-- ==== Sys2Proof/Machine/MovImm8.lean ====
section
/-! DEFINITION. Move immediate byte into an 8-bit register half, opcodes 0xB0 to 0xB7 (42_mov_r8_imm8.md). -/

namespace Sys2Proof.Machine

/-- `MovR8Imm8` (42_mov_r8_imm8.md R150), in a state whose PC has passed the instruction. A register without halves is
the register file's own contract violation (60_exceptions.md R226). -/
def routineMovR8Imm8 (opAddr : Word) (dst src : Operand) (s : State) : State :=
  match dst, src with
  | .half h, .imm8 b =>
    match s.regs.set8 h.owner h.half b with
    | some r => (s.withRegs r).complete
    | none => s.raise (.contractViolation .registerFile8 .reg .imm8 opAddr)
  | d, c => s.raise (.contractViolation .movR8Imm8 d.shape c.shape opAddr)

/-- An instruction of the family, from its opcode byte on: two bytes are consumed (42_mov_r8_imm8.md R150). -/
def moveImm8 (h : Reg8) (imm : Byte) (s : State) : State :=
  routineMovR8Imm8 s.pc (.half h) (.imm8 imm) (s.advance 2)

/-- `MOV AL, imm8`: the low half of AX (42_mov_r8_imm8.md R151). -/
def execMovAL (imm : Byte) (s : State) : Result := .next (moveImm8 .al imm s)

/-- `MOV CL, imm8`: the low half of CX (42_mov_r8_imm8.md R152). -/
def execMovCL (imm : Byte) (s : State) : Result := .next (moveImm8 .cl imm s)

/-- `MOV DL, imm8`: the low half of DX (42_mov_r8_imm8.md R153). -/
def execMovDL (imm : Byte) (s : State) : Result := .next (moveImm8 .dl imm s)

/-- `MOV BL, imm8`: the low half of BX (42_mov_r8_imm8.md R154). -/
def execMovBL (imm : Byte) (s : State) : Result := .next (moveImm8 .bl imm s)

/-- `MOV AH, imm8`: the high half of AX (42_mov_r8_imm8.md R155). -/
def execMovAH (imm : Byte) (s : State) : Result := .next (moveImm8 .ah imm s)

/-- `MOV CH, imm8`: the high half of CX (42_mov_r8_imm8.md R156). -/
def execMovCH (imm : Byte) (s : State) : Result := .next (moveImm8 .ch imm s)

/-- `MOV DH, imm8`: the high half of DX (42_mov_r8_imm8.md R157). -/
def execMovDH (imm : Byte) (s : State) : Result := .next (moveImm8 .dh imm s)

/-- `MOV BH, imm8`: the high half of BX (42_mov_r8_imm8.md R158). -/
def execMovBH (imm : Byte) (s : State) : Result := .next (moveImm8 .bh imm s)

end Sys2Proof.Machine
end

