-- ==== Sys2Proof/Machine/MovSreg.lean ====
section
/-! DEFINITION. Moves between a segment register and a register/memory word, opcodes 0x8C and 0x8E (44_mov_sreg.md). -/

namespace Sys2Proof.Machine

/-- `MovRM16Sreg` (44_mov_sreg.md R191), in a state whose PC has passed the instruction. -/
def routineMovRM16Sreg (opAddr : Word) (dst src : Operand) (s : State) : State :=
  moveWord .movRM16Sreg opAddr dst src s

/-- `MovSregRM16` (44_mov_sreg.md R192), in a state whose PC has passed the instruction. -/
def routineMovSregRM16 (opAddr : Word) (dst src : Operand) (s : State) : State :=
  moveWord .movSregRM16 opAddr dst src s

/-- `MOV r/m16, Sreg`: a general register or two bytes of memory receive a segment register (44_mov_sreg.md R191).
That a memory destination is a store is the spec's DESIGN CHOICE (D7, log 9); unsafe. -/
def execMovRm16Sreg (dst : RmOperand) (src : SReg) (s : State) : Result :=
  .next (routineMovRM16Sreg s.pc (resolveRm dst s) (.reg (.sreg src)) (s.advance dst.instrLength))

/-- `MOV Sreg, r/m16`: a segment register receives a general register or two bytes of memory (44_mov_sreg.md R192). CS
is a destination like any other (D27, log 24). -/
def execMovSregRm16 (dst : SReg) (src : RmOperand) (s : State) : Result :=
  .next (routineMovSregRM16 s.pc (.reg (.sreg dst)) (resolveRm src s) (s.advance src.instrLength))

end Sys2Proof.Machine
end

