-- ==== Sys2Proof/Machine/Dispatch.lean ====
section
/-! DEFINITION. One arm per instruction, each one call of its meaning (41_dispatch.md R130). -/

namespace Sys2Proof.Machine

def exec (i : Instr) (s : State) : Host.Outcome State Fault Refusal :=
  match i with
  | .movAL imm => Sys2Proof.Machine.execMovAL imm s
  | .movCL imm => Sys2Proof.Machine.execMovCL imm s
  | .movDL imm => Sys2Proof.Machine.execMovDL imm s
  | .movBL imm => Sys2Proof.Machine.execMovBL imm s
  | .movAH imm => Sys2Proof.Machine.execMovAH imm s
  | .movCH imm => Sys2Proof.Machine.execMovCH imm s
  | .movDH imm => Sys2Proof.Machine.execMovDH imm s
  | .movBH imm => Sys2Proof.Machine.execMovBH imm s
  | .movAX imm => Sys2Proof.Machine.execMovAX imm s
  | .movCX imm => Sys2Proof.Machine.execMovCX imm s
  | .movDX imm => Sys2Proof.Machine.execMovDX imm s
  | .movBX imm => Sys2Proof.Machine.execMovBX imm s
  | .movSP imm => Sys2Proof.Machine.execMovSP imm s
  | .movBP imm => Sys2Proof.Machine.execMovBP imm s
  | .movSI imm => Sys2Proof.Machine.execMovSI imm s
  | .movDI imm => Sys2Proof.Machine.execMovDI imm s
  | .movRm16Sreg dst src => Sys2Proof.Machine.execMovRm16Sreg dst src s
  | .movSregRm16 dst src => Sys2Proof.Machine.execMovSregRm16 dst src s
  | .intImm8 vector => Sys2Proof.Machine.execIntImm8 vector s

end Sys2Proof.Machine
end

