-- ==== Sys2Proof/Machine/Step.lean ====
section
/-! DEFINITION. One step of the machine: the controller's `do_step()` around the core's `step()` (60_exceptions.md R244,
41_dispatch.md R130), for a given set of resolved addressing pairs and at the default one. -/

namespace Sys2Proof.Machine

/-- The core's `step()` (41_dispatch.md R130): decode the bytes at PC, then apply the instruction or take the decode
fault. -/
def coreStepWith (resolved : Config.AddressingSet) (s : State) : Host.Outcome State Fault Refusal :=
  match decodeWith resolved (fetchWindow s) with
  | .ok (i, _) => exec i s
  | .error e => takeDecodeError e s

/-- `do_step()` (60_exceptions.md R244): count, step, latch. -/
def stepWith (resolved : Config.AddressingSet) (s : State) : Host.Outcome State Fault Refusal :=
  afterStep (coreStepWith resolved s.countStep)

/-- The step of the machine, under the default EA_RESOLVED. -/
def step (s : State) : Host.Outcome State Fault Refusal := stepWith eaResolved s

/-- `s` with the instruction whose bits are `w` at the address it fetches next (log 20). -/
def State.withFetchWord (s : State) (nbits w : Nat) : State := s.writeBytes s.pc (tableBytes nbits w)

end Sys2Proof.Machine
end

