-- ==== Sys2Proof/Machine/Engine.lean ====
section
/-! DEFINITION. The core's `step()` as the spec's pseudocode writes it, fetching byte by byte with the fetch primitives
(41_dispatch.md R130, 40_operand_decoder.md R106, R111, R116). `step` of Machine/Step.lean decodes first and applies
then; that the two agree is a statement. The routines are the shared ones of the family files. -/

namespace Sys2Proof.Machine

/-- `ResolveRM(mod, rm)` (40_operand_decoder.md R106). -/
def engineResolveRm (mod : BitVec 2) (rm : BitVec 3) (s : State) : Operand × State :=
  match mod with
  | 0 => if rm = 6 then (.mem s.fetch16.1, s.fetch16.2) else (.mem (Base.address (Base.ofNumber rm) s), s)
  | 1 => (.mem (Base.address (Base.ofNumber rm) s + s.fetchS8.1), s.fetchS8.2)
  | 2 => (.mem (Base.address (Base.ofNumber rm) s + s.fetchS16.1), s.fetchS16.2)
  | _ => (.reg (.gpr (Gpr.ofNumber rm)), s)

/-- What both decode entry points do (40_operand_decoder.md R111): fetch the ModRM byte, check it (R116), resolve the
register/memory operand. `Except.error` is a raise, with the failure and the state it leaves. -/
def engineModRm (resolved : Config.AddressingSet) (opAddr : Word) (s : State) :
    Except (Failure × State) (SReg × Operand × State) :=
  let mod := s.fetchModRm.1.1
  let reg := s.fetchModRm.1.2.1
  let rm := s.fetchModRm.1.2.2
  let s' := s.fetchModRm.2
  let m := modRmByte mod reg rm
  match SReg.ofSelector reg with
  | none => .error (.decodeFault (.invalidSegmentSelector m opAddr), s')
  | some sreg =>
    if mod ≠ 3 ∧ ¬ resolved.contains (mod, rm) then
      .error (.decodeFault (.unresolvedAddressing m opAddr), s')
    else .ok (sreg, engineResolveRm mod rm s')

/-- `step()` (41_dispatch.md R130). -/
def engineStep (resolved : Config.AddressingSet) (s : State) : State :=
  let opAddr := s.pc
  let op := s.fetch8.1
  let s1 := s.fetch8.2
  match dispatchOpcode op with
  | some (.movR8Imm8 h) => routineMovR8Imm8 opAddr (.half h) (.imm8 s1.fetch8.1) s1.fetch8.2
  | some (.movR16Imm16 g) => routineMovR16Imm16 opAddr (.reg (.gpr g)) (.imm16 s1.fetch16.1) s1.fetch16.2
  | some .movRm16Sreg =>
    match engineModRm resolved opAddr s1 with
    | .ok (sreg, rm, s2) => routineMovRM16Sreg opAddr rm (.reg (.sreg sreg)) s2
    | .error (f, s2) => s2.raise f
  | some .movSregRm16 =>
    match engineModRm resolved opAddr s1 with
    | .ok (sreg, rm, s2) => routineMovSregRM16 opAddr (.reg (.sreg sreg)) rm s2
    | .error (f, s2) => s2.raise f
  | some .intImm8 => routineIntImm8 opAddr s1.fetch8.1 s1.fetch8.2
  | none => s1.raise (.decodeFault (.unrecognizedOpcode op opAddr))

end Sys2Proof.Machine
end

