-- ==== Sys2Proof/Machine/Controller.lean ====
section
/-! DEFINITION. The breakpoint and stepping controller: `step_n`, `run_until_breakpoint`, their reports, the read-only
views, and the complete list of host operations (60_exceptions.md, 70_reset_and_hazards.md R284). -/

namespace Sys2Proof.Machine

/-- The trace record of one step: the address of the opcode byte, the byte, and the outcome (60_exceptions.md R249). -/
structure TraceRecord where
  opAddr : Word
  op : Byte
  outcome : StepOutcome
deriving DecidableEq, Repr

/-- The stop report of a run (60_exceptions.md R247). -/
structure StopReport where
  steps : Nat
  hit : Bool
  failure : Option Failure
  notices : List Notice
deriving DecidableEq, Repr

/-- Why a run stopped, the primary reason (60_exceptions.md R247). -/
inductive StopReason where
  | failure (f : Failure)
  | breakpoint
deriving DecidableEq, Repr

/-- The failure is the primary reason if there is one, otherwise the breakpoint (60_exceptions.md R234, R247; D19). -/
def StopReport.primaryReason (r : StopReport) : Option StopReason :=
  match r.failure with
  | some f => some (.failure f)
  | none => if r.hit then some .breakpoint else none

/-- The register snapshot: PC and `R16[0]` to `R16[13]` (60_exceptions.md R250). -/
structure Snapshot where
  pc : Word
  registers : List Word
deriving DecidableEq, Repr

/-- `do_step()` with the triple it returns (60_exceptions.md R244). Every step leaves an outcome in `report`. -/
def doStep (s : State) : Host.Outcome (TraceRecord × State) Fault Refusal :=
  match step s with
  | .next t => .next ({ opAddr := s.pc, op := s.read8 s.pc, outcome := t.report.getD .ok }, t)
  | .fault r => .fault r
  | .refused r => .refused r

/-- `step_n(n)`: exactly `n` steps, each with its record; neither a failure nor a breakpoint ends it (60_exceptions.md
R245). -/
def stepN : Nat → State → Host.Outcome (List TraceRecord × State) Fault Refusal
  | 0, s => .next ([], s)
  | n + 1, s =>
    match doStep s with
    | .next (r, t) =>
      match stepN n t with
      | .next (rs, u) => .next (r :: rs, u)
      | .fault f => .fault f
      | .refused f => .refused f
    | .fault f => .fault f
    | .refused f => .refused f

/-- The loop of `run_until_breakpoint()` (60_exceptions.md R246), from `steps` steps and `notices` on: the test comes
after the step. `none` says that `fuel` steps were performed and the run has not ended; the hardware has no such limit
(R248; DESIGN CHOICE, log 14; safe). -/
def runLoop : Nat → Nat → List Notice → State → Host.Outcome (Option StopReport × State) Fault Refusal
  | 0, _, _, s => .next (none, s)
  | fuel + 1, steps, notices, s =>
    match doStep s with
    | .next (r, t) =>
      let hit := t.breakpoints.contains t.pc
      let collected := notices ++ r.outcome.notices
      if hit || r.outcome.isFailure then
        .next (some { steps := steps + 1, hit := hit, failure := r.outcome.failure?, notices := collected }, t)
      else runLoop fuel (steps + 1) collected t
    | .fault f => .fault f
    | .refused f => .refused f

/-- `run_until_breakpoint()` observed for at most `fuel` steps (60_exceptions.md R246). -/
def runUntilBreakpoint (fuel : Nat) (s : State) : Host.Outcome (Option StopReport × State) Fault Refusal :=
  runLoop fuel 0 [] s

/-- All fourteen registers in the order of their unified index (10_state.md R12). -/
def allRegs : List Reg16 :=
  [.gpr .ax, .gpr .cx, .gpr .dx, .gpr .bx, .gpr .sp, .gpr .bp, .gpr .si, .gpr .di,
   .sreg .es, .sreg .cs, .sreg .ss, .sreg .ds, .sreg .fs, .sreg .gs]

/-- The register snapshot (60_exceptions.md R250). -/
def State.snapshot (s : State) : Snapshot := { pc := s.pc, registers := allRegs.map s.reg }

/-- The host operations: those of 70_reset_and_hazards.md R284, all the ways the outside can act on the hardware, the reset
event, and the reading of FATAL (10_state.md R27: "The host can read it"). -/
inductive HostOp where
  | reset
  | loadBlock (data : List Byte) (base : Word)
  | loadImage (data : List Byte) (base : Word)
  | resetPc
  | stepN (n : Nat)
  | runUntilBreakpoint (fuel : Nat)
  | addBreakpoint (a : Word)
  | removeBreakpoint (a : Word)
  | clearBreakpoints
  | listBreakpoints
  | snapshot
  | instructionCount
  | failureLatch
deriving DecidableEq, Repr

/-- What a host operation returns. -/
inductive HostReply where
  | done
  | trace (records : List TraceRecord)
  | stopped (report : StopReport)
  | stillRunning
  | breakpoints (addresses : List Word)
  | registers (snapshot : Snapshot)
  | count (n : BitVec Config.icountWidth)
  | latch (fatal : Bool)
deriving DecidableEq, Repr

/-- One host operation, between steps (20_memory.md R55). `list()` gives the members; their order is open
(60_exceptions.md R243; D20) and rising in the model (log 15). -/
def perform (op : HostOp) (s : State) : Host.Outcome (HostReply × State) Fault Refusal :=
  match op with
  | .reset => .next (.done, State.reset)
  | .loadBlock data base => .next (.done, s.loadBlock data base)
  | .loadImage data base => .next (.done, s.loadImage data base)
  | .resetPc => .next (.done, s.resetPc)
  | .stepN n =>
    match stepN n s with
    | .next (records, t) => .next (.trace records, t)
    | .fault f => .fault f
    | .refused f => .refused f
  | .runUntilBreakpoint fuel =>
    match runUntilBreakpoint fuel s with
    | .next (some report, t) => .next (.stopped report, t)
    | .next (none, t) => .next (.stillRunning, t)
    | .fault f => .fault f
    | .refused f => .refused f
  | .addBreakpoint a => .next (.done, s.addBreakpoint a)
  | .removeBreakpoint a => .next (.done, s.removeBreakpoint a)
  | .clearBreakpoints => .next (.done, s.clearBreakpoints)
  | .listBreakpoints => .next (.breakpoints s.breakpoints, s)
  | .snapshot => .next (.registers s.snapshot, s)
  | .instructionCount => .next (.count s.icount, s)
  | .failureLatch => .next (.latch s.fatal, s)

end Sys2Proof.Machine
end

