-- ==== Sys2Proof/Safety.lean ====
section
/-! DEFINITION. What the claims speak of: the invariant of the state, the core part of it, and good and failed ends of a
run (60_exceptions.md R252). -/

namespace Sys2Proof.Machine

/-- What every reachable state satisfies: memory in canonical form, the breakpoint list strictly rising, and a failure of
the latest step recorded in the latch (10_state.md R27). The memory form (log 23) and the rising order (log 15) are the
model's own choice of how to keep the data; the spec says only that the set has no duplicates (10_state.md R24). -/
abbrev State.Inv (s : State) : Prop :=
  Memory.wf s.mem ∧ Breakpoints.wf s.breakpoints ∧ (s.failed = true → s.fatal = true)

/-- The core state `(R16[0..13], PC, MEM)`, all that a step may depend on (10_state.md R28). -/
abbrev State.sameCore (s t : State) : Prop := s.regs = t.regs ∧ s.pc = t.pc ∧ s.mem = t.mem

/-- The debug unit's state that no step writes (10_state.md R24, R26). -/
abbrev State.sameHostState (s t : State) : Prop := s.breakpoints = t.breakpoints ∧ s.imageBase = t.imageBase

/-- `k` steps of the machine, one after another. -/
def run (k : Nat) (s : State) : Result := core.run k s

/-- A run that stopped came to a good end (60_exceptions.md R252). -/
def StopReport.good (r : StopReport) : Bool := r.failure.isNone

/-- A run stops here: a breakpoint is hit or the latest step failed (60_exceptions.md R246). -/
def State.stopsRun (s : State) : Bool := s.breakpoints.contains s.pc || s.failed

end Sys2Proof.Machine
end

