-- ==== Sys2Proof/Certificates/Slice0/Obligations.lean ====
section
/-! DEFINITION. The statements for the provers. Each docstring names the rule of spec/ a statement formalises. "D<n>"
names a decision of 92_eei_decisions.md, a point the source leaves open and the spec decides as its own choice, that the
statement rests on, and "log <n>" the entry of notes/assumptions/ that records it. -/

open Sys2Proof Sys2Proof.Machine

/-! Reset -/

/-- What reset leaves (70_reset_and_hazards.md R270). Memory is the source's; every other value is the spec's own
decision (D13, D16, D18, D25; logs 1 and 2), and `report` is the model's own (log 3). -/
def Obligations.ResetLeavesEverythingZero : Prop :=
  (∀ r : Reg16, State.reset.reg r = 0x0000) ∧ State.reset.pc = 0x0000 ∧ (∀ a : Word, State.reset.read8 a = 0x00) ∧
    State.reset.breakpoints = [] ∧ State.reset.icount = 0 ∧ State.reset.imageBase = 0x0000 ∧
    State.reset.fatal = false ∧ State.reset.report = none

/-- Reset meets the invariant, whose latch clause is 10_state.md R27's and whose no-duplicates part is R24's. The memory
form (log 23) and the rising order of the breakpoint list (log 15; order open by D20) are the model's own DESIGN CHOICE and
no rule gives them. -/
def Obligations.ResetMeetsInvariant : Prop := State.reset.Inv

/-- Straight out of reset a step ends in a decode fault on the zero byte (70_reset_and_hazards.md R273; D13, D16, D18,
logs 1 and 13; that 0x00 is no opcode is D1, log 6). -/
def Obligations.FirstStepFromEmptyMemory : Prop :=
  step State.reset = .next { State.reset with
    pc := 0x0001
    icount := 1
    fatal := true
    report := some (.failed (.decodeFault (.unrecognizedOpcode 0x00 0x0000))) }

/-! Encoding -/

/-- Decoding an encoded instruction gives it back, whatever follows it, for every set of resolved addressing pairs
(30_encoding.md R71, R72; opcode and register numbers D1 to D4, log 6). -/
def Obligations.DecodeInvertsEncode : Prop :=
  ∀ (resolved : Config.AddressingSet) (i : Instr) (rest : List Byte), i.wellFormedWith resolved = true →
    decodeWith resolved (encode i ++ rest) = .ok (i, rest)

/-- What the decoder accepts is the encoding of what it answers, which is well-formed: no two byte sequences mean one
instruction and no bit is ignored (30_encoding.md R71, R87; opcode and register numbers D1 to D4, log 6). -/
def Obligations.EncodeInvertsDecode : Prop :=
  ∀ (resolved : Config.AddressingSet) (bytes rest : List Byte) (i : Instr),
    decodeWith resolved bytes = .ok (i, rest) → encode i ++ rest = bytes ∧ i.wellFormedWith resolved = true

/-- Eight byte sequences that the spec prints decode to the instructions it prints beside them (30_encoding.md R88,
44_mov_sreg.md R191, R192, 95_test_vectors.md V56). The ninth, 8C A4 00 20, is printed nowhere: it is put together from
opcode 8C (44_mov_sreg.md R191) and the bytes A4 00 20 of 40_operand_decoder.md R118, whose `reg` field 4 is FS. Opcode
bytes, numbers and bit places are the spec's decisions D1 to D4 (log 6). -/
def Obligations.SpecBytesDecode : Prop :=
  decode [0xB4, 0xAB] = .ok (.movAH 0xAB, []) ∧
    decode [0xB8, 0x34, 0x12] = .ok (.movAX 0x1234, []) ∧
    decode [0x8C, 0x00] = .ok (.movRm16Sreg (.base .bxSi) .es, []) ∧
    decode [0x8C, 0xDB] = .ok (.movRm16Sreg (.reg .bx) .ds, []) ∧
    decode [0x8E, 0xD8] = .ok (.movSregRm16 .ds (.reg .ax), []) ∧
    decode [0x8E, 0x16, 0x10, 0x20] = .ok (.movSregRm16 .ss (.direct 0x2010), []) ∧
    decode [0x8E, 0x43, 0xF0] = .ok (.movSregRm16 .es (.disp8 .bpDi 0xF0), []) ∧
    decode [0x8C, 0xA4, 0x00, 0x20] = .ok (.movRm16Sreg (.disp16 .si 0x2000) .fs, []) ∧
    decode [0xCD, 0x21] = .ok (.intImm8 0x21, [])

/-- The 237 opcode bytes that are no instruction, by the ranges the rule lists (30_encoding.md R84). -/
def Obligations.UnrecognizedOpcodeRanges : Prop :=
  ∀ op : Byte, dispatchOpcode op = none ↔
    (op ≤ 0x8B ∨ op = 0x8D ∨ (0x8F ≤ op ∧ op ≤ 0xAF) ∨ (0xC0 ≤ op ∧ op ≤ 0xCC) ∨ 0xCE ≤ op)

/-- The decoder consumes exactly the length of the instruction, which is 2 to 4 bytes, by form as the table gives it
(30_encoding.md R74, R75; the place of the direct address is D4, log 6). -/
def Obligations.DecoderConsumesLength : Prop :=
  ∀ (resolved : Config.AddressingSet) (bytes rest : List Byte) (i : Instr),
    decodeWith resolved bytes = .ok (i, rest) →
      bytes.length = i.length + rest.length ∧ 2 ≤ i.length ∧ i.length ≤ 4 ∧
        (∀ (g : Gpr) (s : SReg), i = .movRm16Sreg (.reg g) s ∨ i = .movSregRm16 s (.reg g) → i.length = 2) ∧
        (∀ (b : Base) (s : SReg), i = .movRm16Sreg (.base b) s ∨ i = .movSregRm16 s (.base b) → i.length = 2) ∧
        (∀ (a : Word) (s : SReg), i = .movRm16Sreg (.direct a) s ∨ i = .movSregRm16 s (.direct a) → i.length = 4) ∧
        (∀ (b : Base) (d : Byte) (s : SReg),
          i = .movRm16Sreg (.disp8 b d) s ∨ i = .movSregRm16 s (.disp8 b d) → i.length = 3) ∧
        (∀ (b : Base) (d : Word) (s : SReg),
          i = .movRm16Sreg (.disp16 b d) s ∨ i = .movSregRm16 s (.disp16 b d) → i.length = 4)

/-- Class 3 reads no displacement or address byte and is the general register of the r/m value
(40_operand_decoder.md R110). The opcode bytes, the bit places and the register numbers are the spec's decisions D1, D4 and
D2 (log 6). -/
def Obligations.RegisterClassReadsNoFurtherByte : Prop :=
  ∀ (resolved : Config.AddressingSet) (m : Byte) (rest : List Byte) (s : SReg), modField m = 3 →
    SReg.ofSelector (regField m) = some s →
      decodeWith resolved (0x8C :: m :: rest) = .ok (.movRm16Sreg (.reg (Gpr.ofNumber (rmField m))) s, rest) ∧
        decodeWith resolved (0x8E :: m :: rest) = .ok (.movSregRm16 s (.reg (Gpr.ofNumber (rmField m))), rest)

/-- The unified index numbers the fourteen registers 0 to 13, and 14 and above name none (10_state.md R12, R13; the
numbering is the spec's decision D2, log 6). -/
def Obligations.UnifiedIndexNamesFourteen : Prop :=
  (∀ r : Reg16, r.index < 14 ∧ Reg16.ofIndex r.index = some r) ∧
    (∀ i : Nat, Reg16.ofIndex i = none ↔ 14 ≤ i) ∧ allRegs.map Reg16.index = List.range 14

/-- A word is `{hi, lo}` with the low byte in bits 7:0, the byte lanes are its inverse, and `sext_16` keeps the signed
value (00_scope.md R5, R6). -/
def Obligations.BytesComposeWords : Prop :=
  (∀ hi lo : Byte, (concatBytes hi lo).toNat = hi.toNat * 256 + lo.toNat) ∧
    (∀ hi lo : Byte, lowByte (concatBytes hi lo) = lo ∧ highByte (concatBytes hi lo) = hi) ∧
    (∀ w : Word, concatBytes (highByte w) (lowByte w) = w) ∧
    (∀ b : Byte, (sext16 b).toInt = b.toInt)

/-- The three fields of a ModRM byte: `m = mod*64 + reg*8 + rm` (30_encoding.md R72; bit places D4, log 6). -/
def Obligations.ModRmFieldsComposeByte : Prop :=
  (∀ m : Byte, m.toNat = (modField m).toNat * 64 + (regField m).toNat * 8 + (rmField m).toNat) ∧
    ∀ (mod : BitVec 2) (reg rm : BitVec 3), modField (modRmByte mod reg rm) = mod ∧
      regField (modRmByte mod reg rm) = reg ∧ rmField (modRmByte mod reg rm) = rm

/-! The step -/

/-- When the bytes at PC decode to an instruction, a step counts, runs exactly it and latches a failure of it
(41_dispatch.md R130, 60_exceptions.md R244; D16, D18, log 13). -/
def Obligations.StepRunsTheDecodedInstruction : Prop :=
  ∀ (s : State) (i : Instr) (rest : List Byte),
    decode [s.read8 s.pc, s.read8 (s.pc + 1), s.read8 (s.pc + 2), s.read8 (s.pc + 3)] = .ok (i, rest) →
      step s = afterStep (exec i { s with icount := s.icount + 1 }) ∧
        ∀ t, exec i { s with icount := s.icount + 1 } = .next t →
          step s = .next { t with fatal := t.fatal || t.failed }

/-- Every step from every state has exactly one next state, and it carries an outcome: no step stops the machine
(93_implementation_defined.md 2.4, 60_exceptions.md R232; log 4). -/
def Obligations.EveryStepAnswersNext : Prop :=
  ∀ (resolved : Config.AddressingSet) (s : State), ∃ t o, stepWith resolved s = .next t ∧ t.report = some o

/-- The core's step, which decodes a window of bytes and then applies the instruction, does what the spec's pseudocode
does, which fetches byte by byte with the fetch primitives (41_dispatch.md R130, 40_operand_decoder.md R100 to R106,
R111, R116). -/
def Obligations.StepRefinesPseudocode : Prop :=
  ∀ (resolved : Config.AddressingSet) (s : State), coreStepWith resolved s = .next (engineStep resolved s)

/-- An unrecognized opcode: the byte and the address are reported, PC is one past the opcode byte, nothing else changes
(41_dispatch.md R131). -/
def Obligations.UnrecognizedOpcodeAbandonsStep : Prop :=
  ∀ (resolved : Config.AddressingSet) (s : State), dispatchOpcode (s.read8 s.pc) = none →
    coreStepWith resolved s = .next { s with
      pc := s.pc + 1
      report := some (.failed (.decodeFault (.unrecognizedOpcode (s.read8 s.pc) s.pc))) }

/-- A `reg` field of 6 or 7 after 0x8C or 0x8E: a decode fault with PC two past the opcode address, whatever `mod`, `rm`
and the set of resolved pairs are (40_operand_decoder.md R115, R116, 60_exceptions.md R223, R233; D6, D30, log 8; opcode bytes
and bit places D1, D4, log 6). -/
def Obligations.InvalidSelectorAbandonsStep : Prop :=
  ∀ (resolved : Config.AddressingSet) (s : State), s.read8 s.pc = 0x8C ∨ s.read8 s.pc = 0x8E →
    6 ≤ regField (s.read8 (s.pc + 1)) →
      coreStepWith resolved s = .next { s with
        pc := s.pc + 2
        report := some (.failed (.decodeFault (.invalidSegmentSelector (s.read8 (s.pc + 1)) s.pc))) }

/-- A memory form outside the set of resolved pairs, under a legal selector: a decode fault with PC two past the opcode
address (40_operand_decoder.md R116, 60_exceptions.md R224; D5, log 7; order D30, log 8; opcode bytes and bit places D1, D4,
log 6). -/
def Obligations.UnresolvedAddressingAbandonsStep : Prop :=
  ∀ (resolved : Config.AddressingSet) (s : State), s.read8 s.pc = 0x8C ∨ s.read8 s.pc = 0x8E →
    regField (s.read8 (s.pc + 1)) < 6 → modField (s.read8 (s.pc + 1)) ≠ 3 →
      (modField (s.read8 (s.pc + 1)), rmField (s.read8 (s.pc + 1))) ∉ resolved →
        coreStepWith resolved s = .next { s with
          pc := s.pc + 2
          report := some (.failed (.decodeFault (.unresolvedAddressing (s.read8 (s.pc + 1)) s.pc))) }

/-- A failed step changes nothing but PC, which passes the bytes consumed (41_dispatch.md R138, 60_exceptions.md R230).
That these are one or two bytes rests on where each failure is detected: after the opcode byte (41_dispatch.md R131), or
after the ModRM byte and before any displacement, the spec's decisions D5, D6 and D30 (logs 7 and 8), and on no other
failure being reached (D7, D17, D32, logs 9 and 18). -/
def Obligations.FailedStepChangesOnlyPc : Prop :=
  ∀ (resolved : Config.AddressingSet) (s t : State) (f : Failure), coreStepWith resolved s = .next t →
    t.report = some (.failed f) →
      (t.pc = s.pc + 1 ∨ t.pc = s.pc + 2) ∧ t = { s with pc := t.pc, report := some (.failed f) }

/-- A step whose bytes decode completes, with PC just past the instruction (41_dispatch.md R139, 10_state.md R19). That a
decoded step completes is, for the moves, that their operands meet the contracts (41_dispatch.md R133), for the memory forms
of 0x8C and 0x8E by the decision D7 that a memory operand is in them (log 9), and that no decoded step reaches a contract
violation or a fatal execution fault (D17, D32, log 18). For INT it is the decision D14 that the stub is a completion
(log 12). The advance is modulo 65536 (D10, log 11). -/
def Obligations.DecodedStepCompletesPastInstruction : Prop :=
  ∀ (resolved : Config.AddressingSet) (s : State) (i : Instr) (rest : List Byte),
    decodeWith resolved (fetchWindow s) = .ok (i, rest) →
      ∃ t, coreStepWith resolved s = .next t ∧ t.pc = s.pc + BitVec.ofNat 16 i.length ∧ t.failed = false

/-- A step advances PC by 1 to 4, by 1 exactly when the opcode is unrecognized (30_encoding.md R75, which is derived). That an
invalid selector leaves PC two further is D6 and D30 (log 8), and the advance is modulo 65536 by D10 (log 11). -/
def Obligations.StepAdvancesPcByOneToFour : Prop :=
  ∀ s t : State, step s = .next t → ∃ k : Nat, 1 ≤ k ∧ k ≤ 4 ∧ t.pc = s.pc + BitVec.ofNat 16 k ∧
    (k = 1 ↔ dispatchOpcode (s.read8 s.pc) = none)

/-- Under the default EA_RESOLVED no byte sequence reaches a contract violation, an unresolved addressing form or a
fatal execution fault: a failed step is an unrecognized opcode or an invalid selector at the step's own opcode address
(41_dispatch.md R133, 60_exceptions.md R224 to R227; D5, D17, D32, logs 7 and 18). That the memory forms are no contract
violation is D7 (log 9), and that INT is no failure is D14 (log 12). -/
def Obligations.OnlyTwoFailuresReachable : Prop :=
  ∀ (s t : State) (f : Failure), step s = .next t → t.report = some (.failed f) →
    f = .decodeFault (.unrecognizedOpcode (s.read8 s.pc) s.pc) ∨
      f = .decodeFault (.invalidSegmentSelector (s.read8 (s.pc + 1)) s.pc)

/-- A step is a function of the registers, PC and memory alone, and changes no debug-unit state: two states with the
same core step to states with the same core and the same outcome (10_state.md R28). -/
def Obligations.StepDependsOnCoreAlone : Prop :=
  ∀ (resolved : Config.AddressingSet) (s t : State), s.sameCore t →
    ∃ s' t', coreStepWith resolved s = .next s' ∧ coreStepWith resolved t = .next t' ∧
      s'.sameCore t' ∧ s'.report = t'.report ∧
      s'.sameHostState s ∧ s'.icount = s.icount ∧ s'.fatal = s.fatal ∧
      t'.sameHostState t ∧ t'.icount = t.icount ∧ t'.fatal = t.fatal

/-- Segment registers take no part in forming an address: with other segment registers the same bytes are fetched, the
effective addresses are the same, and a step ends at the same PC with the same outcome (10_state.md R14,
20_memory.md R40). -/
def Obligations.SegmentRegistersFormNoAddress : Prop :=
  ∀ (resolved : Config.AddressingSet) (s s' t' : State) (r : RegFile),
    (∀ g : Gpr, r.get (.gpr g) = s.regs.get (.gpr g)) →
      fetchWindow { s with regs := r } = fetchWindow s ∧
        (∀ rm : RmOperand, effectiveAddress rm { s with regs := r } = effectiveAddress rm s) ∧
        (coreStepWith resolved s = .next s' → coreStepWith resolved { s with regs := r } = .next t' →
          t'.pc = s'.pc ∧ t'.report = s'.report)

/-- Every step keeps the invariant: memory stays canonical, the breakpoint set stays without repeats, and a failure of
the latest step stays recorded (10_state.md R24, R27, 60_exceptions.md R244). The memory
form (log 23) and the rising order of the breakpoint list (log 15; order open by D20) are the model's own DESIGN CHOICE and
no rule gives them. -/
def Obligations.StepKeepsInvariant : Prop := ∀ s t : State, s.Inv → step s = .next t → t.Inv

/-- Every host operation keeps the invariant (70_reset_and_hazards.md R284, 10_state.md R24, R27). The memory
form (log 23) and the rising order of the breakpoint list (log 15; order open by D20) are the model's own DESIGN CHOICE and
no rule gives them. -/
def Obligations.HostOperationsKeepInvariant : Prop :=
  ∀ (op : HostOp) (s t : State) (reply : HostReply), s.Inv → perform op s = .next (reply, t) → t.Inv

/-! Registers, memory and operands -/

/-- `write16` then `read16` of any of the fourteen registers, both halves replaced at once, and nothing else changed
(10_state.md R15). -/
def Obligations.RegisterWriteThenRead : Prop :=
  ∀ (s : State) (i : Reg16) (v : Word), (s.setReg i v).reg i = v ∧
    (∀ j : Reg16, j ≠ i → (s.setReg i v).reg j = s.reg j) ∧
    (∀ g : Gpr, i = .gpr g → gprHasHalves g = true →
      (s.setReg i v).regs.get8 g .low = some (lowByte v) ∧ (s.setReg i v).regs.get8 g .high = some (highByte v)) ∧
    s.setReg i v = { s with regs := (s.setReg i v).regs }

/-- An 8-bit write changes its half alone; both halves written in either order give `(hi << 8) | lo`; and an 8-bit
access to a register without halves is refused as a contract violation (10_state.md R17, where "in either order" is derived).
Which half a number names is the spec's decision D3, and that AX, CX, DX, BX have the halves and SP, BP, SI, DI have none
follows from the register numbers of D2 (log 6). -/
def Obligations.HalfWritesComposeRegister : Prop :=
  (∀ (r : RegFile) (h : Reg8) (b : Byte), r.set8 h.owner h.half b = some (r.set (.gpr h.owner)
    (if h.number < 4 then concatBytes (highByte (r.get (.gpr h.owner))) b
      else concatBytes b (lowByte (r.get (.gpr h.owner)))))) ∧
    (∀ (r : RegFile) (g : Gpr) (lo hi : Byte), gprHasHalves g = true →
      ((r.set8 g .low lo).bind fun r' => r'.set8 g .high hi) = some (r.set (.gpr g) (concatBytes hi lo)) ∧
        ((r.set8 g .high hi).bind fun r' => r'.set8 g .low lo) = some (r.set (.gpr g) (concatBytes hi lo))) ∧
    (∀ (r : RegFile) (g : Gpr) (half : Half) (b : Byte), g ∈ [Gpr.sp, .bp, .si, .di] →
      r.get8 g half = none ∧ r.set8 g half b = none)

/-- A byte written is read back, and every other byte is as before: the law of 20_memory.md R42, which the spec derives
from R41. -/
def Obligations.ByteWriteThenRead : Prop :=
  ∀ (s : State) (a b : Word) (v : Byte), (s.write8 a v).read8 a = v ∧
    (b ≠ a → (s.write8 a v).read8 b = s.read8 b)

/-- A word written is read back, its low byte at `a` and its high byte at `a +16 1` for every `a`, 0xFFFF included, and
nothing else changes (20_memory.md R44, R45, R47, R48; D8, D9, log 10). -/
def Obligations.WordWriteThenRead : Prop :=
  ∀ (s : State) (a w : Word), (s.write16 a w).read16 a = w ∧
    (s.write16 a w).read8 a = lowByte w ∧ (s.write16 a w).read8 (a + 1) = highByte w ∧
    (∀ b : Word, b ≠ a → b ≠ a + 1 → (s.write16 a w).read8 b = s.read8 b) ∧
    s.read16 a = concatBytes (s.read8 (a + 1)) (s.read8 a) ∧
    s.write16 a w = { s with mem := (s.write16 a w).mem }

/-- The byte fetch primitives: the byte at PC, its sign extension, and the three ModRM fields, each advancing PC by one
(40_operand_decoder.md R100, R102). The ModRM clause (R104) takes the bit places of 30_encoding.md R72, which are the spec's
decision D4 (log 6). -/
def Obligations.FetchPrimitivesReadAndAdvance : Prop :=
  ∀ s : State, s.fetch8 = (s.read8 s.pc, { s with pc := s.pc + 1 }) ∧
    (s.fetchS8.1.toInt = (s.read8 s.pc).toInt ∧ s.fetchS8.2 = { s with pc := s.pc + 1 }) ∧
    s.fetchModRm = (((s.read8 s.pc).extractLsb' 6 2, (s.read8 s.pc).extractLsb' 3 3, (s.read8 s.pc).extractLsb' 0 3),
      { s with pc := s.pc + 1 })

/-- `Fetch16()` is the little-endian word at PC; at 0xFFFF its high byte comes from 0x0000 and PC becomes 0x0001
(40_operand_decoder.md R101, 20_memory.md R43, 10_state.md R20; D10, log 11). -/
def Obligations.WordFetchWrapsAtTop : Prop :=
  ∀ s : State, s.fetch16 = (s.read16 s.pc, { s with pc := s.pc + 2 }) ∧
    (s.pc = 0xFFFF → s.fetch16 = (concatBytes (s.read8 0x0000) (s.read8 0xFFFF), { s with pc := 0x0001 }))

/-- The effective address of every memory form (40_operand_decoder.md R107 to R109; table and modulus D4, D11, logs 6
and 11). -/
def Obligations.EffectiveAddressTable : Prop :=
  ∀ (s : State) (a d16 : Word) (d8 : Byte) (g : Gpr),
    Base.address .bxSi s = s.regs.bx + s.regs.si ∧ Base.address .bxDi s = s.regs.bx + s.regs.di ∧
    Base.address .bpSi s = s.regs.bp + s.regs.si ∧ Base.address .bpDi s = s.regs.bp + s.regs.di ∧
    Base.address .si s = s.regs.si ∧ Base.address .di s = s.regs.di ∧
    Base.address .bp s = s.regs.bp ∧ Base.address .bx s = s.regs.bx ∧
    effectiveAddress (.reg g) s = none ∧ effectiveAddress (.direct a) s = some a ∧
    ∀ b : Base, effectiveAddress (.base b) s = some (Base.address b s) ∧
      effectiveAddress (.disp8 b d8) s = some (Base.address b s + sext16 d8) ∧
      effectiveAddress (.disp16 b d16) s = some (Base.address b s + d16)

/-- Reading and writing a 16-bit operand through its descriptor; an immediate is no destination and a byte immediate no
16-bit source (41_dispatch.md R134, R135). That a memory operand is a descriptor at all is the spec's decision D7 (R132;
log 9). -/
def Obligations.OperandAccessByDescriptor : Prop :=
  ∀ (s : State) (r : Reg16) (a v w : Word) (b : Byte),
    s.readOperand16 (.reg r) = some (s.reg r) ∧ s.readOperand16 (.mem a) = some (s.read16 a) ∧
    s.readOperand16 (.imm16 w) = some w ∧ s.readOperand16 (.imm8 b) = none ∧
    s.writeOperand16 (.reg r) v = some (s.setReg r v) ∧ s.writeOperand16 (.mem a) v = some (s.write16 a v) ∧
    s.writeOperand16 (.imm8 b) v = none ∧ s.writeOperand16 (.imm16 w) v = none

/-- For each routine, a descriptor pair outside its contract is a contract violation that writes nothing (41_dispatch.md
R133, 60_exceptions.md R225; D7, D32, logs 9 and 18). The model keeps the spec's one descriptor `Reg` apart as a register
and a half (log 17, the model's own DESIGN CHOICE), both of shape Reg. So a register with a byte immediate, whose shapes are
the legal (Reg, Imm8) of R133, is foreign to the byte routine, and a half is foreign to the word routines; no decoder makes
either pair. -/
def Obligations.RoutinesRejectForeignPairs : Prop :=
  ∀ (opAddr : Word) (dst src : Operand) (s : State),
    ((¬ ∃ h b, dst = .half h ∧ src = .imm8 b) → routineMovR8Imm8 opAddr dst src s =
      { s with report := some (.failed (.contractViolation .movR8Imm8 dst.shape src.shape opAddr)) }) ∧
    ((¬ ∃ g w, dst = .reg (.gpr g) ∧ src = .imm16 w) → routineMovR16Imm16 opAddr dst src s =
      { s with report := some (.failed (.contractViolation .movR16Imm16 dst.shape src.shape opAddr)) }) ∧
    ((¬ ∃ x, src = .reg (.sreg x) ∧ ((∃ g, dst = .reg (.gpr g)) ∨ ∃ a, dst = .mem a)) →
      routineMovRM16Sreg opAddr dst src s =
        { s with report := some (.failed (.contractViolation .movRM16Sreg dst.shape src.shape opAddr)) }) ∧
    ((¬ ∃ x, dst = .reg (.sreg x) ∧ ((∃ g, src = .reg (.gpr g)) ∨ ∃ a, src = .mem a)) →
      routineMovSregRM16 opAddr dst src s =
        { s with report := some (.failed (.contractViolation .movSregRM16 dst.shape src.shape opAddr)) })

/-! The instructions: results -/

/-- The eight moves of an immediate byte into a half: the bytes, the half replaced, the counterpart half kept, PC two
further, nothing else changed, no failure (42_mov_r8_imm8.md R151 to R158). The opcode bytes and the halves they name are
the spec's decisions D1 to D3 (log 6). -/
def Obligations.MovImmediateByteResult : Prop :=
  ∀ (s : State) (b : Byte) (rest : List Byte),
    (decode (0xB0 :: b :: rest) = .ok (.movAL b, rest) ∧ exec (.movAL b) s = .next { s with
      regs := { s.regs with ax := concatBytes (highByte s.regs.ax) b }, pc := s.pc + 2, report := some .ok }) ∧
    (decode (0xB1 :: b :: rest) = .ok (.movCL b, rest) ∧ exec (.movCL b) s = .next { s with
      regs := { s.regs with cx := concatBytes (highByte s.regs.cx) b }, pc := s.pc + 2, report := some .ok }) ∧
    (decode (0xB2 :: b :: rest) = .ok (.movDL b, rest) ∧ exec (.movDL b) s = .next { s with
      regs := { s.regs with dx := concatBytes (highByte s.regs.dx) b }, pc := s.pc + 2, report := some .ok }) ∧
    (decode (0xB3 :: b :: rest) = .ok (.movBL b, rest) ∧ exec (.movBL b) s = .next { s with
      regs := { s.regs with bx := concatBytes (highByte s.regs.bx) b }, pc := s.pc + 2, report := some .ok }) ∧
    (decode (0xB4 :: b :: rest) = .ok (.movAH b, rest) ∧ exec (.movAH b) s = .next { s with
      regs := { s.regs with ax := concatBytes b (lowByte s.regs.ax) }, pc := s.pc + 2, report := some .ok }) ∧
    (decode (0xB5 :: b :: rest) = .ok (.movCH b, rest) ∧ exec (.movCH b) s = .next { s with
      regs := { s.regs with cx := concatBytes b (lowByte s.regs.cx) }, pc := s.pc + 2, report := some .ok }) ∧
    (decode (0xB6 :: b :: rest) = .ok (.movDH b, rest) ∧ exec (.movDH b) s = .next { s with
      regs := { s.regs with dx := concatBytes b (lowByte s.regs.dx) }, pc := s.pc + 2, report := some .ok }) ∧
    (decode (0xB7 :: b :: rest) = .ok (.movBH b, rest) ∧ exec (.movBH b) s = .next { s with
      regs := { s.regs with bx := concatBytes b (lowByte s.regs.bx) }, pc := s.pc + 2, report := some .ok })

/-- The eight moves of an immediate word into a general register: the bytes, low byte first, the whole register
replaced, PC three further, nothing else changed, no failure (43_mov_r16_imm16.md R171 to R178). The opcode bytes and the
registers they name are the spec's decisions D1, D2 and D24 (logs 6 and 24). -/
def Obligations.MovImmediateWordResult : Prop :=
  ∀ (s : State) (lo hi : Byte) (rest : List Byte),
    (decode (0xB8 :: lo :: hi :: rest) = .ok (.movAX (hi ++ lo), rest) ∧ exec (.movAX (hi ++ lo)) s = .next { s with
      regs := { s.regs with ax := hi ++ lo }, pc := s.pc + 3, report := some .ok }) ∧
    (decode (0xB9 :: lo :: hi :: rest) = .ok (.movCX (hi ++ lo), rest) ∧ exec (.movCX (hi ++ lo)) s = .next { s with
      regs := { s.regs with cx := hi ++ lo }, pc := s.pc + 3, report := some .ok }) ∧
    (decode (0xBA :: lo :: hi :: rest) = .ok (.movDX (hi ++ lo), rest) ∧ exec (.movDX (hi ++ lo)) s = .next { s with
      regs := { s.regs with dx := hi ++ lo }, pc := s.pc + 3, report := some .ok }) ∧
    (decode (0xBB :: lo :: hi :: rest) = .ok (.movBX (hi ++ lo), rest) ∧ exec (.movBX (hi ++ lo)) s = .next { s with
      regs := { s.regs with bx := hi ++ lo }, pc := s.pc + 3, report := some .ok }) ∧
    (decode (0xBC :: lo :: hi :: rest) = .ok (.movSP (hi ++ lo), rest) ∧ exec (.movSP (hi ++ lo)) s = .next { s with
      regs := { s.regs with sp := hi ++ lo }, pc := s.pc + 3, report := some .ok }) ∧
    (decode (0xBD :: lo :: hi :: rest) = .ok (.movBP (hi ++ lo), rest) ∧ exec (.movBP (hi ++ lo)) s = .next { s with
      regs := { s.regs with bp := hi ++ lo }, pc := s.pc + 3, report := some .ok }) ∧
    (decode (0xBE :: lo :: hi :: rest) = .ok (.movSI (hi ++ lo), rest) ∧ exec (.movSI (hi ++ lo)) s = .next { s with
      regs := { s.regs with si := hi ++ lo }, pc := s.pc + 3, report := some .ok }) ∧
    (decode (0xBF :: lo :: hi :: rest) = .ok (.movDI (hi ++ lo), rest) ∧ exec (.movDI (hi ++ lo)) s = .next { s with
      regs := { s.regs with di := hi ++ lo }, pc := s.pc + 3, report := some .ok })

/-- `MOV r16, Sreg`: the general register receives the segment register's value (44_mov_sreg.md R190, R191, class 3). -/
def Obligations.MovSregToRegisterResult : Prop :=
  ∀ (s : State) (g : Gpr) (x : SReg), exec (.movRm16Sreg (.reg g) x) s = .next { s with
    regs := s.regs.set (.gpr g) (s.regs.get (.sreg x)), pc := s.pc + 2, report := some .ok }

/-- `MOV m16, Sreg`: the segment register's value is stored at the effective address, low byte first
(44_mov_sreg.md R191, classes 0 to 2; D7, D8, D9, logs 9 and 10). -/
def Obligations.MovSregToMemoryResult : Prop :=
  ∀ (s : State) (rm : RmOperand) (x : SReg) (a : Word), effectiveAddress rm s = some a →
    exec (.movRm16Sreg rm x) s = .next { s with
      mem := Memory.write (Memory.write s.mem a.toNat (lowByte (s.regs.get (.sreg x)))) (a + 1).toNat
        (highByte (s.regs.get (.sreg x)))
      pc := s.pc + BitVec.ofNat 16 rm.instrLength
      report := some .ok }

/-- `MOV Sreg, r16`: the segment register, CS included, receives the general register's value (44_mov_sreg.md R190,
R192, class 3; D27, log 24). -/
def Obligations.MovRegisterToSregResult : Prop :=
  ∀ (s : State) (x : SReg) (g : Gpr), exec (.movSregRm16 x (.reg g)) s = .next { s with
    regs := s.regs.set (.sreg x) (s.regs.get (.gpr g)), pc := s.pc + 2, report := some .ok }

/-- `MOV Sreg, m16`: the segment register, CS included, receives the word at the effective address, low byte first
(44_mov_sreg.md R192, classes 0 to 2; that these classes load is D7, log 9; D8, D9, D27, logs 10 and 24). -/
def Obligations.MovMemoryToSregResult : Prop :=
  ∀ (s : State) (x : SReg) (rm : RmOperand) (a : Word), effectiveAddress rm s = some a →
    exec (.movSregRm16 x rm) s = .next { s with
      regs := s.regs.set (.sreg x) (concatBytes (s.read8 (a + 1)) (s.read8 a))
      pc := s.pc + BitVec.ofNat 16 rm.instrLength
      report := some .ok }

/-- `INT imm8`: the step completes with the notice of its vector and its own address, for every vector; nothing but PC
changes (45_int.md R210, 60_exceptions.md R228; D14, log 12; opcode 0xCD D1, log 6). -/
def Obligations.IntReportsVector : Prop :=
  ∀ (s : State) (v : Byte) (rest : List Byte), decode (0xCD :: v :: rest) = .ok (.intImm8 v, rest) ∧
    exec (.intImm8 v) s = .next { s with
      pc := s.pc + 2, report := some (.okNotice (.unimplementedInterrupt v s.pc)) }

/-! The instructions: frames -/

/-- Frame of MOV AL, CL, DL, BL, AH, CH, DH, BH, imm8: only the owning register changes, its other half is kept, no byte
of memory and no debug-unit state changes (41_dispatch.md R136, R138, 10_state.md R29). -/
def Obligations.MovImmediateByteFrame : Prop :=
  ∀ (h : Reg8) (b : Byte) (s t : State), exec (instrMovR8 h b) s = .next t →
    (∀ r : Reg16, r ≠ .gpr h.owner → t.reg r = s.reg r) ∧
    (∀ h' : Reg8, h' ≠ h → t.regs.get8 h'.owner h'.half = s.regs.get8 h'.owner h'.half) ∧
    (∀ a : Word, t.read8 a = s.read8 a) ∧ t.sameHostState s ∧ t.icount = s.icount ∧ t.fatal = s.fatal

/-- Frame of MOV AX, CX, DX, BX, SP, BP, SI, DI, imm16: only the named register changes, no segment register, no byte of
memory, no debug-unit state (41_dispatch.md R138, 10_state.md R29). -/
def Obligations.MovImmediateWordFrame : Prop :=
  ∀ (g : Gpr) (w : Word) (s t : State), exec (instrMovR16 g w) s = .next t →
    (∀ r : Reg16, r ≠ .gpr g → t.reg r = s.reg r) ∧
    (∀ a : Word, t.read8 a = s.read8 a) ∧ t.sameHostState s ∧ t.icount = s.icount ∧ t.fatal = s.fatal

/-- Frame of MOV r/m16, Sreg: only the destination register of class 3 changes, and in the memory forms only the two
bytes at the effective address (44_mov_sreg.md R191, 41_dispatch.md R138; that these are a store is D7, log 9, and which two
bytes they are is D9, log 10). -/
def Obligations.MovFromSregFrame : Prop :=
  ∀ (rm : RmOperand) (x : SReg) (s t : State), exec (.movRm16Sreg rm x) s = .next t →
    (∀ r : Reg16, (∀ g, rm = .reg g → r ≠ .gpr g) → t.reg r = s.reg r) ∧
    (∀ b : Word, (∀ a, effectiveAddress rm s = some a → b ≠ a ∧ b ≠ a + 1) → t.read8 b = s.read8 b) ∧
    t.sameHostState s ∧ t.icount = s.icount ∧ t.fatal = s.fatal

/-- Frame of MOV Sreg, r/m16: only the named segment register changes, no byte of memory (44_mov_sreg.md R192,
41_dispatch.md R138; that the memory forms are a load is D7, log 9). -/
def Obligations.MovToSregFrame : Prop :=
  ∀ (x : SReg) (rm : RmOperand) (s t : State), exec (.movSregRm16 x rm) s = .next t →
    (∀ r : Reg16, r ≠ .sreg x → t.reg r = s.reg r) ∧
    (∀ a : Word, t.read8 a = s.read8 a) ∧ t.sameHostState s ∧ t.icount = s.icount ∧ t.fatal = s.fatal

/-- Frame of INT imm8: no register, SP and CS included, no byte of memory and no debug-unit state changes
(45_int.md R210, R211; that INT has no effect of its own is D14, log 12). -/
def Obligations.IntFrame : Prop :=
  ∀ (v : Byte) (s t : State), exec (.intImm8 v) s = .next t →
    (∀ r : Reg16, t.reg r = s.reg r) ∧ (∀ a : Word, t.read8 a = s.read8 a) ∧
    t.sameHostState s ∧ t.icount = s.icount ∧ t.fatal = s.fatal

/-- A store is seen by the very next fetch: where the address stored to is the end of the storing instruction, the next
opcode byte and the byte after it are the bytes stored (20_memory.md R54, 70_reset_and_hazards.md R281). That the memory form
of 0x8C is a store is D7 (log 9), and the place of the two bytes is D8 and D9 (log 10). -/
def Obligations.StoreSeenByNextFetch : Prop :=
  ∀ (s t : State) (rm : RmOperand) (x : SReg), exec (.movRm16Sreg rm x) s = .next t →
    effectiveAddress rm s = some (s.pc + BitVec.ofNat 16 rm.instrLength) →
      t.fetch8.1 = lowByte (s.reg (.sreg x)) ∧ t.fetch8.2.fetch8.1 = highByte (s.reg (.sreg x))

/-! The debug unit and the host -/

/-- `load_block`: the bytes that fit are written at ascending addresses, the rest are dropped, and nothing else changes
(20_memory.md R56). -/
def Obligations.LoadBlockClips : Prop :=
  ∀ (s : State) (data : List Byte) (base : Word),
    (∀ (j : Nat) (b : Byte), data[j]? = some b → base.toNat + j < 65536 →
      (s.loadBlock data base).read8 (BitVec.ofNat 16 (base.toNat + j)) = b) ∧
    (∀ a : Word, a.toNat < base.toNat ∨ base.toNat + data.length ≤ a.toNat →
      (s.loadBlock data base).read8 a = s.read8 a) ∧
    s.loadBlock data base = { s with mem := (s.loadBlock data base).mem }

/-- `load_image` is `load_block`, then PC and IMAGE_BASE; `reset_pc` sets PC to IMAGE_BASE and nothing else
(70_reset_and_hazards.md R277, R278; D25, log 25). -/
def Obligations.LoadImageSetsPcAndBase : Prop :=
  ∀ (s : State) (data : List Byte) (base : Word),
    s.loadImage data base = { s with mem := (s.loadBlock data base).mem, pc := base, imageBase := base } ∧
    s.resetPc = { s with pc := s.imageBase }

/-- `add`, `remove` and `clear_all` as set operations; adding a member and removing an address that is no member change
nothing (60_exceptions.md R241 to R243). That the set is a list in rising order, which the premise of the clause on adding
a member says, and that `list()` answers that list as it stands, are the model's own DESIGN CHOICE (log 15): R243 leaves
the order open (D20). -/
def Obligations.BreakpointSetOperations : Prop :=
  ∀ (s : State) (a b : Word),
    (b ∈ (s.addBreakpoint a).breakpoints ↔ b = a ∨ b ∈ s.breakpoints) ∧
    (b ∈ (s.removeBreakpoint a).breakpoints ↔ b ∈ s.breakpoints ∧ b ≠ a) ∧
    s.clearBreakpoints = { s with breakpoints := [] } ∧
    (Breakpoints.wf s.breakpoints → a ∈ s.breakpoints → s.addBreakpoint a = s) ∧
    (a ∉ s.breakpoints → s.removeBreakpoint a = s) ∧
    (s.clearBreakpoints.addBreakpoint a).breakpoints = [a] ∧
    s.addBreakpoint a = { s with breakpoints := (s.addBreakpoint a).breakpoints } ∧
    s.removeBreakpoint a = { s with breakpoints := (s.removeBreakpoint a).breakpoints } ∧
    perform .listBreakpoints s = .next (.breakpoints s.breakpoints, s)

/-- After `k` steps of any outcome the counter has risen by `k` modulo 2^64 (60_exceptions.md R238, 10_state.md R25;
D18, log 13). -/
def Obligations.CounterCountsEveryStep : Prop :=
  ∀ (k : Nat) (s : State), ∃ t : State, run k s = .next t ∧ t.icount = s.icount + BitVec.ofNat 64 k

/-- A step sets the latch exactly when it fails, and neither a step nor a host operation other than reset clears it
(10_state.md R27, 60_exceptions.md R244; D16, log 13). -/
def Obligations.LatchRecordsFailures : Prop :=
  (∀ s t : State, step s = .next t → (t.fatal = true ↔ s.fatal = true ∨ ∃ f, t.report = some (.failed f))) ∧
    ∀ (op : HostOp) (s t : State) (reply : HostReply), op ≠ .reset → perform op s = .next (reply, t) →
      s.fatal = true → t.fatal = true

/-- `step_n(n)` performs exactly `n` steps whatever their outcomes and wherever PC goes, and its trace has a record of
each of them; `step_n(0)` performs none (60_exceptions.md R245). -/
def Obligations.StepNPerformsExactlyN : Prop :=
  (∀ s : State, stepN 0 s = .next ([], s)) ∧
    ∀ (n : Nat) (s : State), ∃ (records : List TraceRecord) (t : State),
      stepN n s = .next (records, t) ∧ records.length = n ∧ run n s = .next t

/-- The record of each step in a trace is the address of the opcode byte, the byte, and the outcome with its information
(60_exceptions.md R249, R244; D23, log 26). -/
def Obligations.TraceRecordsEachStep : Prop :=
  ∀ (n : Nat) (s t : State) (records : List TraceRecord), stepN n s = .next (records, t) →
    ∀ k, k < n → ∃ (u v : State) (o : StepOutcome), run k s = .next u ∧ step u = .next v ∧ v.report = some o ∧
      records[k]? = some { opAddr := u.pc, op := u.read8 u.pc, outcome := o }

/-- A run that stops, stops after the first step that leaves PC at a breakpoint or fails, never before the first step,
and its report says how many steps it took, whether the breakpoint was hit, the failure of its last step, and the
notices of its steps in order; the failure is the primary reason if there is one (60_exceptions.md R246, R247, R234; D15, D19,
log 14; a notice stops nothing by D14, log 12). -/
def Obligations.RunStopsAtFirstStop : Prop :=
  ∀ (fuel : Nat) (s t : State) (r : StopReport), runUntilBreakpoint fuel s = .next (some r, t) →
    1 ≤ r.steps ∧ r.steps ≤ fuel ∧ run r.steps s = .next t ∧
    r.hit = t.breakpoints.contains t.pc ∧
    (∀ f, r.failure = some f ↔ t.report = some (.failed f)) ∧
    (r.hit = true ∨ ∃ f, r.failure = some f) ∧
    (∀ f, r.failure = some f → r.primaryReason = some (.failure f)) ∧
    (r.failure = none → r.primaryReason = some .breakpoint) ∧
    (∀ (k : Nat) (u : State), 1 ≤ k → k < r.steps → run k s = .next u → u.stopsRun = false) ∧
    ∀ records u, stepN r.steps s = .next (records, u) → r.notices = records.flatMap fun x => x.outcome.notices

/-- A run is still going after `fuel` steps exactly when none of them stopped it (60_exceptions.md R246, R248, R252; the
bound on the observation is the model's, log 14; a notice stops nothing by D14, log 12). -/
def Obligations.RunGoesOnUntilAStop : Prop :=
  ∀ (fuel : Nat) (s : State), (∃ t, runUntilBreakpoint fuel s = .next (none, t)) ↔
    ∀ (k : Nat) (u : State), 1 ≤ k → k ≤ fuel → run k s = .next u → u.stopsRun = false

/-- An endless run exists: with 0xB0 at every even address, an even PC and no breakpoint, a run never ends
(60_exceptions.md R248, where it is derived; opcode 0xB0 D1, log 6; D10, log 11). -/
def Obligations.EndlessRunExists : Prop :=
  ∀ (s : State), (∀ a : Word, a.toNat % 2 = 0 → s.read8 a = 0xB0) → s.pc.toNat % 2 = 0 → s.breakpoints = [] →
    ∀ fuel, ∃ t, runUntilBreakpoint fuel s = .next (none, t)

/-- The snapshot is PC and the fourteen registers in the order of the unified index; it and the readings of the counter
(60_exceptions.md R250) and of FATAL (10_state.md R27) change nothing. The order of the registers is D2's (log 6), and that
the latch is read by the host alone is D16's (log 13). -/
def Obligations.SnapshotShowsAllRegisters : Prop :=
  ∀ s : State,
    perform .snapshot s = .next (.registers { pc := s.pc, registers :=
      [s.regs.ax, s.regs.cx, s.regs.dx, s.regs.bx, s.regs.sp, s.regs.bp, s.regs.si, s.regs.di,
       s.regs.es, s.regs.cs, s.regs.ss, s.regs.ds, s.regs.fs, s.regs.gs] }, s) ∧
    perform .instructionCount s = .next (.count s.icount, s) ∧
    perform .failureLatch s = .next (.latch s.fatal, s)

/-- The host operations that perform no step: none writes a register, the counter or the latch, and only `load_image`
and `reset_pc` write PC, only the loads write memory, only the breakpoint operations write the set
(70_reset_and_hazards.md R284, 41_dispatch.md R139; D25, D26, logs 19 and 25). -/
def Obligations.HostOperationsFrame : Prop :=
  ∀ (op : HostOp) (s t : State) (reply : HostReply), perform op s = .next (reply, t) → op ≠ .reset →
    (∀ n, op ≠ .stepN n) → (∀ n, op ≠ .runUntilBreakpoint n) →
      t.regs = s.regs ∧ t.icount = s.icount ∧ t.fatal = s.fatal ∧ t.report = s.report ∧
      ((∀ data base, op ≠ .loadImage data base) → op ≠ .resetPc → t.pc = s.pc) ∧
      ((∀ data base, op ≠ .loadImage data base) → t.imageBase = s.imageBase) ∧
      ((∀ data base, op ≠ .loadImage data base) → (∀ data base, op ≠ .loadBlock data base) → t.mem = s.mem) ∧
      ((∀ a, op ≠ .addBreakpoint a) → (∀ a, op ≠ .removeBreakpoint a) → op ≠ .clearBreakpoints →
        t.breakpoints = s.breakpoints)
end

