-- ==== Sys2Proof/Laws/State.lean ====
section
/-! SUPPORT. One lemma per field per update of the state, so that no later proof unfolds a record update. -/

namespace Sys2Proof.Machine

variable (s : State)

@[simp] theorem State.withPc_regs (v : Word) : (s.withPc v).regs = s.regs := rfl
@[simp] theorem State.withPc_pc (v : Word) : (s.withPc v).pc = v := rfl
@[simp] theorem State.withPc_mem (v : Word) : (s.withPc v).mem = s.mem := rfl
@[simp] theorem State.withPc_breakpoints (v : Word) : (s.withPc v).breakpoints = s.breakpoints := rfl
@[simp] theorem State.withPc_icount (v : Word) : (s.withPc v).icount = s.icount := rfl
@[simp] theorem State.withPc_imageBase (v : Word) : (s.withPc v).imageBase = s.imageBase := rfl
@[simp] theorem State.withPc_fatal (v : Word) : (s.withPc v).fatal = s.fatal := rfl
@[simp] theorem State.withPc_report (v : Word) : (s.withPc v).report = s.report := rfl

@[simp] theorem State.advance_regs (n : Nat) : (s.advance n).regs = s.regs := rfl
@[simp] theorem State.advance_pc (n : Nat) : (s.advance n).pc = s.pc + BitVec.ofNat 16 n := rfl
@[simp] theorem State.advance_mem (n : Nat) : (s.advance n).mem = s.mem := rfl
@[simp] theorem State.advance_breakpoints (n : Nat) : (s.advance n).breakpoints = s.breakpoints := rfl
@[simp] theorem State.advance_icount (n : Nat) : (s.advance n).icount = s.icount := rfl
@[simp] theorem State.advance_imageBase (n : Nat) : (s.advance n).imageBase = s.imageBase := rfl
@[simp] theorem State.advance_fatal (n : Nat) : (s.advance n).fatal = s.fatal := rfl
@[simp] theorem State.advance_report (n : Nat) : (s.advance n).report = s.report := rfl

@[simp] theorem State.withMem_regs (m : List Host.Cell) : (s.withMem m).regs = s.regs := rfl
@[simp] theorem State.withMem_pc (m : List Host.Cell) : (s.withMem m).pc = s.pc := rfl
@[simp] theorem State.withMem_mem (m : List Host.Cell) : (s.withMem m).mem = m := rfl
@[simp] theorem State.withMem_breakpoints (m : List Host.Cell) : (s.withMem m).breakpoints = s.breakpoints := rfl
@[simp] theorem State.withMem_icount (m : List Host.Cell) : (s.withMem m).icount = s.icount := rfl
@[simp] theorem State.withMem_imageBase (m : List Host.Cell) : (s.withMem m).imageBase = s.imageBase := rfl
@[simp] theorem State.withMem_fatal (m : List Host.Cell) : (s.withMem m).fatal = s.fatal := rfl
@[simp] theorem State.withMem_report (m : List Host.Cell) : (s.withMem m).report = s.report := rfl

@[simp] theorem State.write8_regs (a : Word) (v : Byte) : (s.write8 a v).regs = s.regs := rfl
@[simp] theorem State.write8_pc (a : Word) (v : Byte) : (s.write8 a v).pc = s.pc := rfl
@[simp] theorem State.write8_mem (a : Word) (v : Byte) : (s.write8 a v).mem = Memory.write s.mem a.toNat v := rfl
@[simp] theorem State.write8_breakpoints (a : Word) (v : Byte) : (s.write8 a v).breakpoints = s.breakpoints := rfl
@[simp] theorem State.write8_icount (a : Word) (v : Byte) : (s.write8 a v).icount = s.icount := rfl
@[simp] theorem State.write8_imageBase (a : Word) (v : Byte) : (s.write8 a v).imageBase = s.imageBase := rfl
@[simp] theorem State.write8_fatal (a : Word) (v : Byte) : (s.write8 a v).fatal = s.fatal := rfl
@[simp] theorem State.write8_report (a : Word) (v : Byte) : (s.write8 a v).report = s.report := rfl

@[simp] theorem State.write16_regs (a w : Word) : (s.write16 a w).regs = s.regs := rfl
@[simp] theorem State.write16_pc (a w : Word) : (s.write16 a w).pc = s.pc := rfl
@[simp] theorem State.write16_mem (a w : Word) : (s.write16 a w).mem = Memory.write (Memory.write s.mem a.toNat (lowByte w)) (a + 1).toNat (highByte w) := rfl
@[simp] theorem State.write16_breakpoints (a w : Word) : (s.write16 a w).breakpoints = s.breakpoints := rfl
@[simp] theorem State.write16_icount (a w : Word) : (s.write16 a w).icount = s.icount := rfl
@[simp] theorem State.write16_imageBase (a w : Word) : (s.write16 a w).imageBase = s.imageBase := rfl
@[simp] theorem State.write16_fatal (a w : Word) : (s.write16 a w).fatal = s.fatal := rfl
@[simp] theorem State.write16_report (a w : Word) : (s.write16 a w).report = s.report := rfl

@[simp] theorem State.loadBlock_regs (data : List Byte) (base : Word) : (s.loadBlock data base).regs = s.regs := rfl
@[simp] theorem State.loadBlock_pc (data : List Byte) (base : Word) : (s.loadBlock data base).pc = s.pc := rfl
@[simp] theorem State.loadBlock_mem (data : List Byte) (base : Word) : (s.loadBlock data base).mem = Memory.load data base.toNat s.mem := rfl
@[simp] theorem State.loadBlock_breakpoints (data : List Byte) (base : Word) : (s.loadBlock data base).breakpoints = s.breakpoints := rfl
@[simp] theorem State.loadBlock_icount (data : List Byte) (base : Word) : (s.loadBlock data base).icount = s.icount := rfl
@[simp] theorem State.loadBlock_imageBase (data : List Byte) (base : Word) : (s.loadBlock data base).imageBase = s.imageBase := rfl
@[simp] theorem State.loadBlock_fatal (data : List Byte) (base : Word) : (s.loadBlock data base).fatal = s.fatal := rfl
@[simp] theorem State.loadBlock_report (data : List Byte) (base : Word) : (s.loadBlock data base).report = s.report := rfl

@[simp] theorem State.loadImage_regs (data : List Byte) (base : Word) : (s.loadImage data base).regs = s.regs := rfl
@[simp] theorem State.loadImage_pc (data : List Byte) (base : Word) : (s.loadImage data base).pc = base := rfl
@[simp] theorem State.loadImage_mem (data : List Byte) (base : Word) : (s.loadImage data base).mem = Memory.load data base.toNat s.mem := rfl
@[simp] theorem State.loadImage_breakpoints (data : List Byte) (base : Word) : (s.loadImage data base).breakpoints = s.breakpoints := rfl
@[simp] theorem State.loadImage_icount (data : List Byte) (base : Word) : (s.loadImage data base).icount = s.icount := rfl
@[simp] theorem State.loadImage_imageBase (data : List Byte) (base : Word) : (s.loadImage data base).imageBase = base := rfl
@[simp] theorem State.loadImage_fatal (data : List Byte) (base : Word) : (s.loadImage data base).fatal = s.fatal := rfl
@[simp] theorem State.loadImage_report (data : List Byte) (base : Word) : (s.loadImage data base).report = s.report := rfl

@[simp] theorem State.resetPc_regs : (s.resetPc).regs = s.regs := rfl
@[simp] theorem State.resetPc_pc : (s.resetPc).pc = s.imageBase := rfl
@[simp] theorem State.resetPc_mem : (s.resetPc).mem = s.mem := rfl
@[simp] theorem State.resetPc_breakpoints : (s.resetPc).breakpoints = s.breakpoints := rfl
@[simp] theorem State.resetPc_icount : (s.resetPc).icount = s.icount := rfl
@[simp] theorem State.resetPc_imageBase : (s.resetPc).imageBase = s.imageBase := rfl
@[simp] theorem State.resetPc_fatal : (s.resetPc).fatal = s.fatal := rfl
@[simp] theorem State.resetPc_report : (s.resetPc).report = s.report := rfl

@[simp] theorem State.withRegs_regs (r : RegFile) : (s.withRegs r).regs = r := rfl
@[simp] theorem State.withRegs_pc (r : RegFile) : (s.withRegs r).pc = s.pc := rfl
@[simp] theorem State.withRegs_mem (r : RegFile) : (s.withRegs r).mem = s.mem := rfl
@[simp] theorem State.withRegs_breakpoints (r : RegFile) : (s.withRegs r).breakpoints = s.breakpoints := rfl
@[simp] theorem State.withRegs_icount (r : RegFile) : (s.withRegs r).icount = s.icount := rfl
@[simp] theorem State.withRegs_imageBase (r : RegFile) : (s.withRegs r).imageBase = s.imageBase := rfl
@[simp] theorem State.withRegs_fatal (r : RegFile) : (s.withRegs r).fatal = s.fatal := rfl
@[simp] theorem State.withRegs_report (r : RegFile) : (s.withRegs r).report = s.report := rfl

@[simp] theorem State.setReg_regs (i : Reg16) (v : Word) : (s.setReg i v).regs = s.regs.set i v := rfl
@[simp] theorem State.setReg_pc (i : Reg16) (v : Word) : (s.setReg i v).pc = s.pc := rfl
@[simp] theorem State.setReg_mem (i : Reg16) (v : Word) : (s.setReg i v).mem = s.mem := rfl
@[simp] theorem State.setReg_breakpoints (i : Reg16) (v : Word) : (s.setReg i v).breakpoints = s.breakpoints := rfl
@[simp] theorem State.setReg_icount (i : Reg16) (v : Word) : (s.setReg i v).icount = s.icount := rfl
@[simp] theorem State.setReg_imageBase (i : Reg16) (v : Word) : (s.setReg i v).imageBase = s.imageBase := rfl
@[simp] theorem State.setReg_fatal (i : Reg16) (v : Word) : (s.setReg i v).fatal = s.fatal := rfl
@[simp] theorem State.setReg_report (i : Reg16) (v : Word) : (s.setReg i v).report = s.report := rfl

@[simp] theorem State.finish_regs (o : StepOutcome) : (s.finish o).regs = s.regs := rfl
@[simp] theorem State.finish_pc (o : StepOutcome) : (s.finish o).pc = s.pc := rfl
@[simp] theorem State.finish_mem (o : StepOutcome) : (s.finish o).mem = s.mem := rfl
@[simp] theorem State.finish_breakpoints (o : StepOutcome) : (s.finish o).breakpoints = s.breakpoints := rfl
@[simp] theorem State.finish_icount (o : StepOutcome) : (s.finish o).icount = s.icount := rfl
@[simp] theorem State.finish_imageBase (o : StepOutcome) : (s.finish o).imageBase = s.imageBase := rfl
@[simp] theorem State.finish_fatal (o : StepOutcome) : (s.finish o).fatal = s.fatal := rfl
@[simp] theorem State.finish_report (o : StepOutcome) : (s.finish o).report = some o := rfl

@[simp] theorem State.complete_regs : (s.complete).regs = s.regs := rfl
@[simp] theorem State.complete_pc : (s.complete).pc = s.pc := rfl
@[simp] theorem State.complete_mem : (s.complete).mem = s.mem := rfl
@[simp] theorem State.complete_breakpoints : (s.complete).breakpoints = s.breakpoints := rfl
@[simp] theorem State.complete_icount : (s.complete).icount = s.icount := rfl
@[simp] theorem State.complete_imageBase : (s.complete).imageBase = s.imageBase := rfl
@[simp] theorem State.complete_fatal : (s.complete).fatal = s.fatal := rfl
@[simp] theorem State.complete_report : (s.complete).report = some .ok := rfl

@[simp] theorem State.notice_regs (n : Notice) : (s.notice n).regs = s.regs := rfl
@[simp] theorem State.notice_pc (n : Notice) : (s.notice n).pc = s.pc := rfl
@[simp] theorem State.notice_mem (n : Notice) : (s.notice n).mem = s.mem := rfl
@[simp] theorem State.notice_breakpoints (n : Notice) : (s.notice n).breakpoints = s.breakpoints := rfl
@[simp] theorem State.notice_icount (n : Notice) : (s.notice n).icount = s.icount := rfl
@[simp] theorem State.notice_imageBase (n : Notice) : (s.notice n).imageBase = s.imageBase := rfl
@[simp] theorem State.notice_fatal (n : Notice) : (s.notice n).fatal = s.fatal := rfl
@[simp] theorem State.notice_report (n : Notice) : (s.notice n).report = some (.okNotice n) := rfl

@[simp] theorem State.raise_regs (f : Failure) : (s.raise f).regs = s.regs := rfl
@[simp] theorem State.raise_pc (f : Failure) : (s.raise f).pc = s.pc := rfl
@[simp] theorem State.raise_mem (f : Failure) : (s.raise f).mem = s.mem := rfl
@[simp] theorem State.raise_breakpoints (f : Failure) : (s.raise f).breakpoints = s.breakpoints := rfl
@[simp] theorem State.raise_icount (f : Failure) : (s.raise f).icount = s.icount := rfl
@[simp] theorem State.raise_imageBase (f : Failure) : (s.raise f).imageBase = s.imageBase := rfl
@[simp] theorem State.raise_fatal (f : Failure) : (s.raise f).fatal = s.fatal := rfl
@[simp] theorem State.raise_report (f : Failure) : (s.raise f).report = some (.failed f) := rfl

@[simp] theorem State.countStep_regs : (s.countStep).regs = s.regs := rfl
@[simp] theorem State.countStep_pc : (s.countStep).pc = s.pc := rfl
@[simp] theorem State.countStep_mem : (s.countStep).mem = s.mem := rfl
@[simp] theorem State.countStep_breakpoints : (s.countStep).breakpoints = s.breakpoints := rfl
@[simp] theorem State.countStep_icount : (s.countStep).icount = s.icount + 1 := rfl
@[simp] theorem State.countStep_imageBase : (s.countStep).imageBase = s.imageBase := rfl
@[simp] theorem State.countStep_fatal : (s.countStep).fatal = s.fatal := rfl
@[simp] theorem State.countStep_report : (s.countStep).report = s.report := rfl

@[simp] theorem State.latchFailure_regs : (s.latchFailure).regs = s.regs := rfl
@[simp] theorem State.latchFailure_pc : (s.latchFailure).pc = s.pc := rfl
@[simp] theorem State.latchFailure_mem : (s.latchFailure).mem = s.mem := rfl
@[simp] theorem State.latchFailure_breakpoints : (s.latchFailure).breakpoints = s.breakpoints := rfl
@[simp] theorem State.latchFailure_icount : (s.latchFailure).icount = s.icount := rfl
@[simp] theorem State.latchFailure_imageBase : (s.latchFailure).imageBase = s.imageBase := rfl
@[simp] theorem State.latchFailure_fatal : (s.latchFailure).fatal = (s.fatal || s.failed) := rfl
@[simp] theorem State.latchFailure_report : (s.latchFailure).report = s.report := rfl

@[simp] theorem State.addBreakpoint_regs (a : Word) : (s.addBreakpoint a).regs = s.regs := rfl
@[simp] theorem State.addBreakpoint_pc (a : Word) : (s.addBreakpoint a).pc = s.pc := rfl
@[simp] theorem State.addBreakpoint_mem (a : Word) : (s.addBreakpoint a).mem = s.mem := rfl
@[simp] theorem State.addBreakpoint_breakpoints (a : Word) : (s.addBreakpoint a).breakpoints = Breakpoints.insert s.breakpoints a := rfl
@[simp] theorem State.addBreakpoint_icount (a : Word) : (s.addBreakpoint a).icount = s.icount := rfl
@[simp] theorem State.addBreakpoint_imageBase (a : Word) : (s.addBreakpoint a).imageBase = s.imageBase := rfl
@[simp] theorem State.addBreakpoint_fatal (a : Word) : (s.addBreakpoint a).fatal = s.fatal := rfl
@[simp] theorem State.addBreakpoint_report (a : Word) : (s.addBreakpoint a).report = s.report := rfl

@[simp] theorem State.removeBreakpoint_regs (a : Word) : (s.removeBreakpoint a).regs = s.regs := rfl
@[simp] theorem State.removeBreakpoint_pc (a : Word) : (s.removeBreakpoint a).pc = s.pc := rfl
@[simp] theorem State.removeBreakpoint_mem (a : Word) : (s.removeBreakpoint a).mem = s.mem := rfl
@[simp] theorem State.removeBreakpoint_breakpoints (a : Word) : (s.removeBreakpoint a).breakpoints = s.breakpoints.filter (· ≠ a) := rfl
@[simp] theorem State.removeBreakpoint_icount (a : Word) : (s.removeBreakpoint a).icount = s.icount := rfl
@[simp] theorem State.removeBreakpoint_imageBase (a : Word) : (s.removeBreakpoint a).imageBase = s.imageBase := rfl
@[simp] theorem State.removeBreakpoint_fatal (a : Word) : (s.removeBreakpoint a).fatal = s.fatal := rfl
@[simp] theorem State.removeBreakpoint_report (a : Word) : (s.removeBreakpoint a).report = s.report := rfl

@[simp] theorem State.clearBreakpoints_regs : (s.clearBreakpoints).regs = s.regs := rfl
@[simp] theorem State.clearBreakpoints_pc : (s.clearBreakpoints).pc = s.pc := rfl
@[simp] theorem State.clearBreakpoints_mem : (s.clearBreakpoints).mem = s.mem := rfl
@[simp] theorem State.clearBreakpoints_breakpoints : (s.clearBreakpoints).breakpoints = [] := rfl
@[simp] theorem State.clearBreakpoints_icount : (s.clearBreakpoints).icount = s.icount := rfl
@[simp] theorem State.clearBreakpoints_imageBase : (s.clearBreakpoints).imageBase = s.imageBase := rfl
@[simp] theorem State.clearBreakpoints_fatal : (s.clearBreakpoints).fatal = s.fatal := rfl
@[simp] theorem State.clearBreakpoints_report : (s.clearBreakpoints).report = s.report := rfl

@[simp] theorem State.finish_failed (o : StepOutcome) : (s.finish o).failed = o.isFailure := rfl
@[simp] theorem State.complete_failed : s.complete.failed = false := rfl
@[simp] theorem State.notice_failed (n : Notice) : (s.notice n).failed = false := rfl
@[simp] theorem State.raise_failed (f : Failure) : (s.raise f).failed = true := rfl

end Sys2Proof.Machine
end

