-- ==== Sys2Proof/Laws/Memory.lean ====
section
/-! SUPPORT. Memory: what a read gives after each operation, and that every operation keeps the canonical form. -/

namespace Sys2Proof.Machine

theorem Memory.read_erase_same (m : List Host.Cell) (k : Nat) :
    Memory.read (Memory.erase m k) k = Memory.unlisted := by
  induction m with
  | nil => rfl
  | cons c m ih =>
    unfold Memory.erase at ih ⊢
    by_cases h : c.1 = k
    · simpa [h] using ih
    · simpa [h, Memory.read] using ih

theorem Memory.read_erase_other {k j : Nat} (h : j ≠ k) (m : List Host.Cell) :
    Memory.read (Memory.erase m k) j = Memory.read m j := by
  induction m with
  | nil => rfl
  | cons c m ih =>
    unfold Memory.erase at ih ⊢
    rw [List.filter_cons]
    by_cases hc : c.1 = k
    · have hj : c.1 ≠ j := fun e => h (e.symm.trans hc)
      rw [if_neg (by simp [hc]), ih, Memory.read, if_neg hj]
    · rw [if_pos (by simp [hc]), Memory.read, Memory.read, ih]

theorem Memory.read_insert_other {k j : Nat} (h : j ≠ k) (m : List Host.Cell) (v : Byte) :
    Memory.read (Memory.insert m k v) j = Memory.read m j := by
  induction m with
  | nil => simp [Memory.insert, Memory.read, h.symm]
  | cons c m ih =>
    unfold Memory.insert
    split
    · simp [Memory.read, h.symm]
    · simp [Memory.read, ih]

theorem Memory.read_insert_same (m : List Host.Cell) (k : Nat) (v : Byte) (h : ∀ c ∈ m, c.1 ≠ k) :
    Memory.read (Memory.insert m k v) k = v := by
  induction m with
  | nil => simp [Memory.insert, Memory.read]
  | cons c m ih =>
    have hc : c.1 ≠ k := h c (by simp)
    unfold Memory.insert
    split
    · simp [Memory.read]
    · simpa [Memory.read, hc] using ih fun d hd => h d (by simp [hd])

/-- What a read gives after a write, at the address written and at every other. -/
theorem Memory.read_write (m : List Host.Cell) (k j : Nat) (v : Byte) :
    Memory.read (Memory.write m k v) j = if j = k then v else Memory.read m j := by
  unfold Memory.write
  by_cases hj : j = k
  · subst hj
    split
    · next hv => simp [hv, Memory.read_erase_same]
    · simpa using Memory.read_insert_same (Memory.erase m j) j v (by simp [Memory.erase])
  · rw [if_neg hj]
    split
    · rw [Memory.read_erase_other hj]
    · rw [Memory.read_insert_other hj, Memory.read_erase_other hj]

theorem Memory.wf_nil : Memory.wf [] := ⟨List.Pairwise.nil, fun _ h => absurd h List.not_mem_nil⟩

theorem Memory.wf_erase {m : List Host.Cell} (h : Memory.wf m) (k : Nat) : Memory.wf (Memory.erase m k) :=
  ⟨h.1.filter _, fun c hc => h.2 c (List.mem_of_mem_filter hc)⟩

theorem Memory.mem_insert {m : List Host.Cell} {k : Nat} {v : Byte} {c : Host.Cell}
    (h : c ∈ Memory.insert m k v) : c = (k, v) ∨ c ∈ m := by
  induction m with
  | nil => simpa [Memory.insert] using h
  | cons d m ih =>
    unfold Memory.insert at h
    split at h
    · simpa using h
    · rcases List.mem_cons.1 h with rfl | h
      · simp
      · rcases ih h with h | h <;> simp [h]

theorem Memory.pairwise_insert {m : List Host.Cell} {k : Nat} (v : Byte)
    (h : m.Pairwise fun c d => c.1 < d.1) (hk : ∀ c ∈ m, c.1 ≠ k) :
    (Memory.insert m k v).Pairwise fun c d => c.1 < d.1 := by
  induction m with
  | nil => simp [Memory.insert]
  | cons c m ih =>
    have hc : c.1 ≠ k := hk c (by simp)
    obtain ⟨hlt, hm⟩ := List.pairwise_cons.1 h
    unfold Memory.insert
    split
    · next hkc =>
      refine List.pairwise_cons.2 ⟨fun d hd => ?_, h⟩
      rcases List.mem_cons.1 hd with rfl | hd
      · exact hkc
      · exact hkc.trans (hlt d hd)
    · refine List.pairwise_cons.2 ⟨fun d hd => ?_, ih hm fun d hd => hk d (by simp [hd])⟩
      rcases Memory.mem_insert hd with rfl | hd
      · show c.1 < k
        omega
      · exact hlt d hd

/-- Every write inside the address space keeps the canonical form. -/
theorem Memory.wf_write {m : List Host.Cell} (h : Memory.wf m) {k : Nat} (hk : k < Config.memSize) (v : Byte) :
    Memory.wf (Memory.write m k v) := by
  have he := Memory.wf_erase h k
  unfold Memory.write
  split
  · exact he
  · next hv =>
    refine ⟨Memory.pairwise_insert v he.1 (by simp [Memory.erase]), fun c hc => ?_⟩
    rcases Memory.mem_insert hc with rfl | hc
    · exact ⟨hk, hv⟩
    · exact he.2 c hc

/-- `load_block` keeps the canonical form. -/
theorem Memory.wf_load (data : List Byte) (k : Nat) {m : List Host.Cell} (h : Memory.wf m) :
    Memory.wf (Memory.load data k m) := by
  induction data generalizing k m with
  | nil => exact h
  | cons b data ih =>
    unfold Memory.load
    split
    · next hk => exact ih _ (Memory.wf_write h hk b)
    · exact h

theorem word_lt_memSize (a : Word) : a.toNat < Config.memSize := a.isLt

theorem State.wf_write8 {s : State} (h : Memory.wf s.mem) (a : Word) (v : Byte) : Memory.wf (s.write8 a v).mem :=
  Memory.wf_write h (word_lt_memSize a) v

theorem State.wf_write16 {s : State} (h : Memory.wf s.mem) (a w : Word) : Memory.wf (s.write16 a w).mem :=
  State.wf_write8 (State.wf_write8 h a _) (a + 1) _

theorem State.wf_writeBytes {s : State} (h : Memory.wf s.mem) (a : Word) (bs : List Byte) :
    Memory.wf (s.writeBytes a bs).mem := by
  induction bs generalizing s a with
  | nil => exact h
  | cons b bs ih => exact ih (State.wf_write8 h a b) (a + 1)

/-- Reset memory is in canonical form. -/
theorem State.wf_reset : Memory.wf State.reset.mem := Memory.wf_nil

end Sys2Proof.Machine
end

