-- ==== Sys2Proof/Laws/Registers.lean ====
section
/-! SUPPORT. The register file, the numberings and the byte lanes. -/

namespace Sys2Proof

@[simp] theorem Gpr.ofNumber_number (g : Gpr) : Gpr.ofNumber g.number = g := by cases g <;> rfl

@[simp] theorem SReg.ofSelector_selector (s : SReg) : SReg.ofSelector s.selector = some s := by cases s <;> rfl

@[simp] theorem Reg8.ofNumber_number (h : Reg8) : Reg8.ofNumber h.number = h := by cases h <;> rfl

@[simp] theorem Base.ofNumber_number (b : Base) : Base.ofNumber b.number = b := by cases b <;> rfl

@[simp] theorem lowByte_concatBytes (hi lo : Byte) : lowByte (concatBytes hi lo) = lo := by
  unfold lowByte concatBytes; ext i hi; simp; grind

@[simp] theorem highByte_concatBytes (hi lo : Byte) : highByte (concatBytes hi lo) = hi := by
  unfold highByte concatBytes; ext i hi; simp; grind

@[simp] theorem concatBytes_high_low (w : Word) : concatBytes (highByte w) (lowByte w) = w := by
  unfold concatBytes highByte lowByte; ext i hi; simp; grind

namespace Machine

@[simp] theorem RegFile.get_set_same (r : RegFile) (i : Reg16) (v : Word) : (r.set i v).get i = v := by
  rcases i with g | g <;> cases g <;> rfl

theorem RegFile.get_set_other (r : RegFile) {i j : Reg16} (v : Word) (h : j ≠ i) : (r.set i v).get j = r.get j := by
  rcases i with g | g <;> rcases j with g' | g' <;> cases g <;> cases g' <;> first | rfl | exact absurd rfl h

/-- Two register files that read the same are the same. -/
theorem RegFile.ext_get {r t : RegFile} (h : ∀ i, r.get i = t.get i) : r = t := by
  cases r; cases t
  simp only [RegFile.mk.injEq]
  exact ⟨h (.gpr .ax), h (.gpr .cx), h (.gpr .dx), h (.gpr .bx), h (.gpr .sp), h (.gpr .bp), h (.gpr .si), h (.gpr .di),
    h (.sreg .es), h (.sreg .cs), h (.sreg .ss), h (.sreg .ds), h (.sreg .fs), h (.sreg .gs)⟩

/-- An 8-bit access through a half's own register never violates the register file's contract. -/
@[simp] theorem gprHasHalves_owner (h : Reg8) : gprHasHalves h.owner = true := by cases h <;> rfl

/-- What writing a half does to the register file: its register gets the byte in one lane and keeps the other. -/
theorem RegFile.set8_owner (r : RegFile) (h : Reg8) (b : Byte) :
    r.set8 h.owner h.half b = some (r.set (.gpr h.owner) (match h.half with
      | .low => concatBytes (highByte (r.get (.gpr h.owner))) b
      | .high => concatBytes b (lowByte (r.get (.gpr h.owner))))) := by
  cases h <;> rfl

end Machine

end Sys2Proof
end

