-- ==== Sys2Proof/Laws/Ops.lean ====
section
/-! SUPPORT. One lemma per shared operation that says what it can answer. -/

namespace Sys2Proof.Machine

/-- What the 16-bit move can do: copy the source to the destination, or raise the contract violation. -/
theorem moveWord_cases (r : Routine) (opAddr : Word) (dst src : Operand) (s : State) :
    (∃ v t, r.accepts dst src = true ∧ s.readOperand16 src = some v ∧ s.writeOperand16 dst v = some t ∧
        moveWord r opAddr dst src s = t.complete) ∨
      moveWord r opAddr dst src s = s.raise (.contractViolation r dst.shape src.shape opAddr) := by
  unfold moveWord
  by_cases ha : r.accepts dst src = true
  · cases hv : s.readOperand16 src with
    | none => exact .inr (by simp [ha])
    | some v =>
      cases ht : s.writeOperand16 dst v with
      | none => exact .inr (by simp [ha, ht])
      | some t => exact .inl ⟨v, t, ha, rfl, ht, by simp [ha, ht]⟩
  · exact .inr (by simp [ha])

/-- A pair inside the contract is copied. -/
theorem moveWord_accepted {r : Routine} {dst src : Operand} {s t : State} {v : Word} (opAddr : Word)
    (ha : r.accepts dst src = true) (hv : s.readOperand16 src = some v) (ht : s.writeOperand16 dst v = some t) :
    moveWord r opAddr dst src s = t.complete := by
  simp [moveWord, ha, hv, ht]

/-- The descriptor of a register/memory operand is a general register or memory at the effective address. -/
theorem resolveRm_cases (rm : RmOperand) (s : State) :
    (∃ g, rm = .reg g ∧ resolveRm rm s = .reg (.gpr g) ∧ effectiveAddress rm s = none) ∨
      ∃ a, effectiveAddress rm s = some a ∧ resolveRm rm s = .mem a := by
  cases rm with
  | reg g => exact .inl ⟨g, rfl, rfl, rfl⟩
  | base b => exact .inr ⟨_, rfl, rfl⟩
  | direct a => exact .inr ⟨_, rfl, rfl⟩
  | disp8 b d => exact .inr ⟨_, rfl, rfl⟩
  | disp16 b d => exact .inr ⟨_, rfl, rfl⟩

/-- A decode fault is a next state unless the bytes ended too early. -/
theorem takeDecodeError_next {e : DecodeError} {s : State} {f : Failure} (h : decodeFailure e s.pc = some f) :
    takeDecodeError e s = .next ((s.advance e.consumed).raise f) := by
  simp [takeDecodeError, h]

@[simp] theorem afterStep_next (t : State) : afterStep (.next t) = .next t.latchFailure := rfl

/-- The only next state after the controller's latch is a latched next state. -/
theorem afterStep_eq_next {o : Result} {u : State} (h : afterStep o = .next u) :
    ∃ t, o = .next t ∧ u = t.latchFailure := by
  cases o with
  | next t => exact ⟨t, rfl, by simpa [afterStep] using h.symm⟩
  | fault r => simp [afterStep] at h
  | refused r => simp [afterStep] at h

theorem Breakpoints.mem_insert (l : List Word) (a b : Word) : b ∈ Breakpoints.insert l a ↔ b = a ∨ b ∈ l := by
  induction l with
  | nil => simp [Breakpoints.insert]
  | cons c l ih =>
    unfold Breakpoints.insert
    split
    · next h => simp [h]
    · split
      · simp
      · simp [ih, or_left_comm]

/-- Adding a member keeps the canonical form of the breakpoint set. -/
theorem Breakpoints.wf_insert {l : List Word} (h : Breakpoints.wf l) (a : Word) :
    Breakpoints.wf (Breakpoints.insert l a) := by
  induction l with
  | nil => simp [Breakpoints.insert]
  | cons c l ih =>
    obtain ⟨hlt, hl⟩ := List.pairwise_cons.1 h
    unfold Breakpoints.insert
    split
    · exact h
    · next hne =>
      split
      · next hac =>
        refine List.pairwise_cons.2 ⟨fun d hd => ?_, h⟩
        rcases List.mem_cons.1 hd with rfl | hd
        · exact hac
        · exact BitVec.lt_trans hac (hlt d hd)
      · next hac =>
        refine List.pairwise_cons.2 ⟨fun d hd => ?_, ih hl⟩
        rcases (Breakpoints.mem_insert l a d).1 hd with rfl | hd
        · bv_omega
        · exact hlt d hd

/-- Removing a member keeps the canonical form of the breakpoint set. -/
theorem Breakpoints.wf_filter {l : List Word} (h : Breakpoints.wf l) (a : Word) :
    Breakpoints.wf (l.filter (· ≠ a)) := h.filter _

end Sys2Proof.Machine
end

