-- ==== Sys2Proof/Laws/PerInstr.lean ====
section
/-! SUPPORT. Statements made once per instruction: an encoding has the length the instruction's row gives. -/

namespace Sys2Proof.Laws.EncodedLength

/-- The encoder writes as many bytes as the length table says (30_encoding.md R74). -/
def Statement (i : Instr) : Prop := (encode i).length = i.length

theorem movAL (imm : Byte) : Statement (.movAL imm) := rfl
theorem movCL (imm : Byte) : Statement (.movCL imm) := rfl
theorem movDL (imm : Byte) : Statement (.movDL imm) := rfl
theorem movBL (imm : Byte) : Statement (.movBL imm) := rfl
theorem movAH (imm : Byte) : Statement (.movAH imm) := rfl
theorem movCH (imm : Byte) : Statement (.movCH imm) := rfl
theorem movDH (imm : Byte) : Statement (.movDH imm) := rfl
theorem movBH (imm : Byte) : Statement (.movBH imm) := rfl
theorem movAX (imm : Word) : Statement (.movAX imm) := rfl
theorem movCX (imm : Word) : Statement (.movCX imm) := rfl
theorem movDX (imm : Word) : Statement (.movDX imm) := rfl
theorem movBX (imm : Word) : Statement (.movBX imm) := rfl
theorem movSP (imm : Word) : Statement (.movSP imm) := rfl
theorem movBP (imm : Word) : Statement (.movBP imm) := rfl
theorem movSI (imm : Word) : Statement (.movSI imm) := rfl
theorem movDI (imm : Word) : Statement (.movDI imm) := rfl
theorem movRm16Sreg (dst : RmOperand) (src : SReg) : Statement (.movRm16Sreg dst src) := by cases dst <;> rfl
theorem movSregRm16 (dst : SReg) (src : RmOperand) : Statement (.movSregRm16 dst src) := by cases src <;> rfl
theorem intImm8 (vector : Byte) : Statement (.intImm8 vector) := rfl

end Sys2Proof.Laws.EncodedLength
end

