-- ==== Sys2Proof/Laws/Run.lean ====
section
/-! SUPPORT. A run of steps, one step at a time. -/

namespace Sys2Proof.Machine

theorem coreRun_succ {M : Host.Core} {s t : M.State} (h : M.step s = .next t) (k : Nat) :
    M.run (k + 1) s = M.run k t := by
  rw [Host.Core.run, h]

@[simp] theorem run_zero (s : State) : run 0 s = .next s := rfl

/-- One step, then the rest of the run. -/
theorem run_succ {s t : State} (h : step s = .next t) (k : Nat) : run (k + 1) s = run k t :=
  coreRun_succ (M := core) h k

end Sys2Proof.Machine
end

