-- ==== Sys2Proof/Tests/Slice0.lean ====
section
/-! SUPPORT. The model's own tests. Expected values are those of spec/95_test_vectors.md (V, S, H, P numbers) or are
worked by hand from the rule named. The last part holds one witness for the hypotheses of each statement. -/

namespace Sys2Proof.Machine

/-! Well-formedness: one ill-formed term for each check, and the smaller EA_RESOLVED of 95_test_vectors.md 2.7 -/

/-- All memory pairs but (0, 2), as in 95_test_vectors.md 2.7. -/
def withoutBpSi : Config.AddressingSet := eaResolved.filter (· ≠ (0, 2))

theorem test_wf_rejects_bp_without_displacement : (Instr.movRm16Sreg (.base .bp) .es).wellFormed = false := by decide
theorem test_wf_rejects_bp_without_displacement_as_source : (Instr.movSregRm16 .es (.base .bp)).wellFormed = false := by
  decide
theorem test_wf_rejects_unresolved_base : (Instr.movRm16Sreg (.base .bpSi) .es).wellFormedWith withoutBpSi = false := by
  decide
theorem test_wf_rejects_unresolved_direct :
    (Instr.movRm16Sreg (.direct 0x2010) .es).wellFormedWith (eaResolved.filter (· ≠ (0, 6))) = false := by decide
theorem test_wf_rejects_unresolved_disp8 :
    (Instr.movSregRm16 .ds (.disp8 .bx 0)).wellFormedWith (eaResolved.filter (· ≠ (1, 7))) = false := by decide
theorem test_wf_rejects_unresolved_disp16 :
    (Instr.movSregRm16 .ds (.disp16 .bp 0)).wellFormedWith (eaResolved.filter (· ≠ (2, 6))) = false := by decide
theorem test_wf_accepts_bp_with_displacement : (Instr.movSregRm16 .ds (.disp8 .bp 0)).wellFormed = true := by decide
theorem test_wf_register_class_never_looked_up : (Instr.movSregRm16 .ds (.reg .ax)).wellFormedWith [] = true := by decide

/-! Decoding: a word for every constructor, written from its encoding (30_encoding.md R71, R79 to R83) -/

theorem test_decode_movAL : decode [0xB0, 0xFF] = .ok (.movAL 0xFF, []) := by decide
theorem test_decode_movCL : decode [0xB1, 0x00] = .ok (.movCL 0x00, []) := by decide
theorem test_decode_movDL : decode [0xB2, 0x80] = .ok (.movDL 0x80, []) := by decide
theorem test_decode_movBL : decode [0xB3, 0x7F] = .ok (.movBL 0x7F, []) := by decide
theorem test_decode_movAH : decode [0xB4, 0xB4, 0x11] = .ok (.movAH 0xB4, [0x11]) := by decide
theorem test_decode_movCH : decode [0xB5, 0x01] = .ok (.movCH 0x01, []) := by decide
theorem test_decode_movDH : decode [0xB6, 0x81] = .ok (.movDH 0x81, []) := by decide
theorem test_decode_movBH : decode [0xB7, 0x20] = .ok (.movBH 0x20, []) := by decide
theorem test_decode_movAX : decode [0xB8, 0x34, 0x12] = .ok (.movAX 0x1234, []) := by decide
theorem test_decode_movCX : decode [0xB9, 0xFF, 0x00] = .ok (.movCX 0x00FF, []) := by decide
theorem test_decode_movDX : decode [0xBA, 0x78, 0x56] = .ok (.movDX 0x5678, []) := by decide
theorem test_decode_movBX : decode [0xBB, 0x00, 0x20] = .ok (.movBX 0x2000, []) := by decide
theorem test_decode_movSP : decode [0xBC, 0xFE, 0xFF] = .ok (.movSP 0xFFFE, []) := by decide
theorem test_decode_movBP : decode [0xBD, 0x05, 0x00] = .ok (.movBP 0x0005, []) := by decide
theorem test_decode_movSI : decode [0xBE, 0x10, 0x00] = .ok (.movSI 0x0010, []) := by decide
theorem test_decode_movDI : decode [0xBF, 0x03, 0x00, 0x99] = .ok (.movDI 0x0003, [0x99]) := by decide
/-- mod 1, reg 3, rm 7 (V14) -/
theorem test_decode_movSregRm16 : decode [0x8E, 0x5F, 0x10] = .ok (.movSregRm16 .ds (.disp8 .bx 0x10), []) := by decide
/-- mod 2, reg 3, rm 7 (V57) -/
theorem test_decode_movRm16Sreg :
    decode [0x8C, 0x9F, 0x00, 0xF0] = .ok (.movRm16Sreg (.disp16 .bx 0xF000) .ds, []) := by decide
theorem test_decode_intImm8 : decode [0xCD, 0x21] = .ok (.intImm8 0x21, []) := by decide
/-- mod 3, reg 5, rm 7 (V43): the word after a class 3 ModRM byte is not consumed (S5) -/
theorem test_decode_register_class : decode [0x8E, 0xEF, 0xFF, 0xFF] = .ok (.movSregRm16 .gs (.reg .di), [0xFF, 0xFF]) := by
  decide
/-- V71: selector 6, rejected whatever follows -/
theorem test_decode_invalid_selector : decode [0x8E, 0x36, 0x34, 0x12] = .error (.invalidSegmentSelector 0x36) := by decide
/-- 95_test_vectors.md 2.7: the pair (0, 2) left out of EA_RESOLVED -/
theorem test_decode_unresolved : decodeWith withoutBpSi [0x8C, 0x02] = .error (.unresolvedAddressing 0x02) := by decide
/-- 95_test_vectors.md 2.7: the selector check comes first -/
theorem test_decode_selector_first : decodeWith withoutBpSi [0x8C, 0x32] = .error (.invalidSegmentSelector 0x32) := by
  decide
theorem test_decode_truncated : decode [0xB8, 0x34] = .error .truncated := by decide
/-- The table's row for 0xB0 with the immediate's bits absent (opcode_table.json: match_width_bits 8) -/
theorem test_table_word_opcode_byte : decodeTableWord 8 0xB0 = some (.movAL 0x00) := by decide
/-- The immediate is bits 15:8 and 23:16 of the table's numbering -/
theorem test_table_word_immediate : decodeTableWord 24 0x1234B8 = some (.movAX 0x1234) := by decide
theorem test_table_word_ignores_high_bits : decodeTableWord 8 0x21CD = some (.intImm8 0x00) := by decide

/-! One step -/

/-- The next state of a result, if it is one. -/
def nextOf (o : Result) : Option State :=
  match o with
  | .next t => some t
  | .fault _ => none
  | .refused _ => none

/-- Reset with these registers and an image at `base` (95_test_vectors.md, conventions). -/
def placed (base : Word) (image : List Byte) (regs : RegFile) : State :=
  ({ State.reset with regs := regs }).loadImage image base

/-- A register, PC and the outcome after one step. -/
def regAfter (s : State) (r : Reg16) : Option (Word × Word × Option StepOutcome) :=
  (nextOf (step s)).map fun t => (t.reg r, t.pc, t.report)

/-- Two bytes of memory from an address on, PC and the outcome after one step. -/
def bytesAfter (s : State) (a : Word) : Option (Byte × Byte × Word × Option StepOutcome) :=
  (nextOf (step s)).map fun t => (t.read8 a, t.read8 (a + 1), t.pc, t.report)

/-- The start of V19 to V26. -/
def regsV19 : RegFile := { RegFile.reset with ax := 0x1111, cx := 0x2222, dx := 0x3333, bx := 0x4444 }

/-- V19 to V26 -/
theorem test_step_movAL : regAfter (placed 0x0100 [0xB0, 0xFF] regsV19) (.gpr .ax) = some (0x11FF, 0x0102, some .ok) := by
  decide
theorem test_step_movCL : regAfter (placed 0x0100 [0xB1, 0x00] regsV19) (.gpr .cx) = some (0x2200, 0x0102, some .ok) := by
  decide
theorem test_step_movDL : regAfter (placed 0x0100 [0xB2, 0x80] regsV19) (.gpr .dx) = some (0x3380, 0x0102, some .ok) := by
  decide
theorem test_step_movBL : regAfter (placed 0x0100 [0xB3, 0x7F] regsV19) (.gpr .bx) = some (0x447F, 0x0102, some .ok) := by
  decide
theorem test_step_movAH : regAfter (placed 0x0100 [0xB4, 0xFF] regsV19) (.gpr .ax) = some (0xFF11, 0x0102, some .ok) := by
  decide
theorem test_step_movCH : regAfter (placed 0x0100 [0xB5, 0x00] regsV19) (.gpr .cx) = some (0x0022, 0x0102, some .ok) := by
  decide
theorem test_step_movDH : regAfter (placed 0x0100 [0xB6, 0x80] regsV19) (.gpr .dx) = some (0x8033, 0x0102, some .ok) := by
  decide
theorem test_step_movBH : regAfter (placed 0x0100 [0xB7, 0x7F] regsV19) (.gpr .bx) = some (0x7F44, 0x0102, some .ok) := by
  decide

/-- V29 to V36 -/
theorem test_step_movAX :
    regAfter (placed 0x0100 [0xB8, 0x34, 0x12] regsV19) (.gpr .ax) = some (0x1234, 0x0103, some .ok) := by decide
theorem test_step_movCX :
    regAfter (placed 0x0100 [0xB9, 0x00, 0x00] regsV19) (.gpr .cx) = some (0x0000, 0x0103, some .ok) := by decide
theorem test_step_movDX :
    regAfter (placed 0x0100 [0xBA, 0xFF, 0xFF] regsV19) (.gpr .dx) = some (0xFFFF, 0x0103, some .ok) := by decide
theorem test_step_movBX :
    regAfter (placed 0x0100 [0xBB, 0x00, 0x20] regsV19) (.gpr .bx) = some (0x2000, 0x0103, some .ok) := by decide
theorem test_step_movSP :
    regAfter (placed 0x0100 [0xBC, 0xFE, 0xFF] regsV19) (.gpr .sp) = some (0xFFFE, 0x0103, some .ok) := by decide
theorem test_step_movBP :
    regAfter (placed 0x0100 [0xBD, 0x05, 0x00] regsV19) (.gpr .bp) = some (0x0005, 0x0103, some .ok) := by decide
theorem test_step_movSI :
    regAfter (placed 0x0100 [0xBE, 0x10, 0x00] regsV19) (.gpr .si) = some (0x0010, 0x0103, some .ok) := by decide
theorem test_step_movDI :
    regAfter (placed 0x0100 [0xBF, 0x03, 0x00] regsV19) (.gpr .di) = some (0x0003, 0x0103, some .ok) := by decide
/-- V38: the immediate across the top of memory -/
theorem test_step_movAX_across_top :
    regAfter ((placed 0xFFFE [0xB8, 0x34] RegFile.reset).loadBlock [0x12] 0x0000) (.gpr .ax) =
      some (0x1234, 0x0001, some .ok) := by decide

/-- The start of V48 to V61. -/
def regsV48 : RegFile :=
  { RegFile.reset with bx := 0x2000, bp := 0x0005, si := 0x0010, di := 0x0003, es := 0xBEEF, ds := 0x0DD5 }

/-- V57: the effective address wraps -/
theorem test_step_movRm16Sreg_disp16_wraps :
    bytesAfter (placed 0x0300 [0x8C, 0x9F, 0x00, 0xF0] regsV48) 0x1000 = some (0xD5, 0x0D, 0x0304, some .ok) := by decide
/-- V62: the word at 0xFFFF wraps to 0x0000 -/
theorem test_step_movRm16Sreg_word_wraps :
    bytesAfter (placed 0x0010 [0x8C, 0x07] { RegFile.reset with es := 0xA1B2, bx := 0xFFFF }) 0xFFFF =
      some (0xB2, 0xA1, 0x0012, some .ok) := by decide
/-- V56: a negative displacement -/
theorem test_step_movSregRm16_negative_displacement :
    regAfter ((placed 0x0300 [0x8E, 0x43, 0xF0] regsV48).loadBlock [0x78, 0x56] 0xFFF8) (.sreg .es) =
      some (0x5678, 0x0303, some .ok) := by decide
/-- V45: CS is a destination like any other -/
theorem test_step_movSregRm16_cs :
    regAfter (placed 0x0100 [0x8E, 0xC8] { RegFile.reset with ax := 0xF000 }) (.sreg .cs) =
      some (0xF000, 0x0102, some .ok) := by decide
/-- V74: the stub reports, and SP is as before -/
theorem test_step_intImm8 :
    regAfter (placed 0x0103 [0xCD, 0x21] { RegFile.reset with ax := 0x4C00, sp := 0x0100 }) (.gpr .sp) =
      some (0x0100, 0x0105, some (.okNotice (.unimplementedInterrupt 0x21 0x0103))) := by decide
/-- V77: the vector across the top of memory -/
theorem test_step_intImm8_across_top :
    regAfter ((placed 0xFFFF [0xCD] RegFile.reset).loadBlock [0x10] 0x0000) (.gpr .sp) =
      some (0x0000, 0x0001, some (.okNotice (.unimplementedInterrupt 0x10 0xFFFF))) := by decide
/-- V65: an instruction that overwrites its own bytes runs as it was fetched -/
theorem test_step_overwrites_itself :
    bytesAfter (placed 0x0400 [0x8C, 0x0E, 0x00, 0x04] { RegFile.reset with cs := 0x9090 }) 0x0400 =
      some (0x90, 0x90, 0x0404, some .ok) := by decide
/-- V72: no store, PC two further, the latch set and the step counted -/
theorem test_step_invalid_selector :
    (nextOf (step (placed 0x0200 [0x8C, 0xBF, 0x00, 0x10] RegFile.reset))).map
        (fun t => (t.pc, t.report, t.fatal, t.icount)) =
      some (0x0202, some (.failed (.decodeFault (.invalidSegmentSelector 0xBF 0x0200))), true, 1) := by decide
/-- V78 at 0xFFFF -/
theorem test_step_unrecognized_at_top :
    (nextOf (step (placed 0xFFFF [0x90] RegFile.reset))).map (fun t => (t.pc, t.report, t.fatal)) =
      some (0x0000, some (.failed (.decodeFault (.unrecognizedOpcode 0x90 0xFFFF))), true) := by decide
/-- 95_test_vectors.md 2.7 -/
theorem test_step_unresolved :
    (nextOf (stepWith withoutBpSi (placed 0x0200 [0x8C, 0x02] RegFile.reset))).map (fun t => (t.pc, t.report, t.mem.length)) =
      some (0x0202, some (.failed (.decodeFault (.unresolvedAddressing 0x02 0x0200))), 2) := by decide
/-- A word placed where the machine fetches is the first instruction after reset -/
theorem test_withFetchWord_runs :
    regAfter (State.reset.withFetchWord 24 0x1234B8) (.gpr .ax) = some (0x1234, 0x0003, some .ok) := by decide

/-! The host -/

/-- S6: clipped, not wrapped -/
theorem test_loadBlock_clips :
    let t := (State.reset.loadBlock [0x77] 0x0000).loadBlock [0x11, 0x22, 0x33] 0xFFFE
    (t.read8 0xFFFE, t.read8 0xFFFF, t.read8 0x0000, t.pc) = (0x11, 0x22, 0x77, 0x0000) := by decide
/-- H4 -/
theorem test_loadImage :
    let t := State.reset.loadImage [1, 2, 3] 0x0010
    (t.mem, t.pc, t.imageBase) = ([(0x10, 1), (0x11, 2), (0x12, 3)], 0x0010, 0x0010) := by decide
/-- H10 and H11 -/
theorem test_breakpoints_are_a_set :
    ((State.reset.addBreakpoint 5).addBreakpoint 5).breakpoints = [5] ∧
      ((((State.reset.addBreakpoint 9).addBreakpoint 5).removeBreakpoint 5).removeBreakpoint 7).breakpoints = [9] := by
  decide
/-- The image of P3 with PC where its first run stopped. -/
def afterP3 : State := ((placed 0x00FF [0xB0, 0x01, 0xB1, 0x02, 0xCD, 0x21, 0x0F] RegFile.reset).withPc 0x0105)

/-- The stop report of a run, if it stopped. -/
def reportOf (o : Host.Outcome (Option StopReport × State) Fault Refusal) : Option StopReport :=
  match o with
  | .next (r, _) => r
  | .fault _ => none
  | .refused _ => none

/-- P3, the second run in the variant for R234: both reasons are reported -/
theorem test_run_reports_failure_and_breakpoint :
    reportOf (runUntilBreakpoint 1 ((afterP3.addBreakpoint 0x0105).addBreakpoint 0x0106)) =
      some { steps := 1, hit := true, failure := some (.decodeFault (.unrecognizedOpcode 0x0F 0x0105)), notices := [] } := by
  decide
/-- The order of the snapshot vector of R250 -/
theorem test_snapshot_order :
    (({ State.reset with regs := regsV48 }).snapshot).registers =
      [0, 0, 0, 0x2000, 0, 0x0005, 0x0010, 0x0003, 0xBEEF, 0, 0, 0x0DD5, 0, 0] := by decide
/-- The host reads FATAL, 0 at reset and 1 once set, and changes nothing (10_state.md R27) -/
theorem test_host_reads_latch :
    perform .failureLatch State.reset = .next (.latch false, State.reset) ∧
      perform .failureLatch { State.reset with fatal := true } =
        .next (.latch true, { State.reset with fatal := true }) := ⟨rfl, rfl⟩
/-- The codes of 60_exceptions.md R221 -/
theorem test_outcome_codes :
    [StepOutcome.ok, .okNotice (.unimplementedInterrupt 0 0), .failed (.decodeFault (.unrecognizedOpcode 0 0)),
      .failed (.decodeFault (.invalidSegmentSelector 0 0)), .failed (.decodeFault (.unresolvedAddressing 0 0)),
      .failed (.contractViolation .registerFile8 .reg .imm8 0), .failed (.fatalExecutionFault 0)].map StepOutcome.code =
      [0x00, 0x01, 0x10, 0x11, 0x12, 0x20, 0x30] := by decide

/-! Witnesses: a state and operands that meet the hypotheses of each statement -/

theorem witness_DecodeInvertsEncode :
    [Instr.movDI 0xFFFF, .movRm16Sreg (.reg .sp) .gs, .movRm16Sreg (.base .bx) .es, .movSregRm16 .cs (.direct 0xFFFF),
      .movSregRm16 .ss (.disp8 .bp 0x80), .movRm16Sreg (.disp16 .bp 0x8000) .fs].all (·.wellFormedWith eaResolved) = true := by
  decide

/-- One accepted byte sequence for each clause of the length table. -/
theorem witness_EncodeInvertsDecode_DecoderConsumesLength :
    decodeWith eaResolved [0x8C, 0xC0] = .ok (.movRm16Sreg (.reg .ax) .es, []) ∧
      decodeWith eaResolved [0x8E, 0x07, 0x00] = .ok (.movSregRm16 .es (.base .bx), [0x00]) ∧
      decodeWith eaResolved [0x8E, 0x06, 0xFF, 0xFF] = .ok (.movSregRm16 .es (.direct 0xFFFF), []) ∧
      decodeWith eaResolved [0x8C, 0x46, 0x00] = .ok (.movRm16Sreg (.disp8 .bp 0x00) .es, []) ∧
      decodeWith eaResolved [0x8C, 0xAF, 0xFF, 0xFF] = .ok (.movRm16Sreg (.disp16 .bx 0xFFFF) .gs, []) := by decide

theorem witness_RegisterClassReadsNoFurtherByte :
    modField 0xC0 = 3 ∧ SReg.ofSelector (regField 0xC0) = some .es ∧
      modField 0xEF = 3 ∧ SReg.ofSelector (regField 0xEF) = some .gs := by decide

/-- `B0 00` at address 0, the state of a first step. -/
def movAtZero : State := placed 0x0000 [0xB0, 0x00] RegFile.reset

theorem witness_StepRunsTheDecodedInstruction :
    decode [movAtZero.read8 0x0000, movAtZero.read8 0x0001, movAtZero.read8 0x0002, movAtZero.read8 0x0003] =
        .ok (.movAL 0x00, [0x00, 0x00]) ∧
      ∃ t, exec (.movAL 0x00) { movAtZero with icount := movAtZero.icount + 1 } = .next t :=
  ⟨by decide, _, rfl⟩

theorem witness_DecodedStepCompletesPastInstruction :
    decodeWith eaResolved (fetchWindow movAtZero) = .ok (.movAL 0x00, [0x00, 0x00]) := by decide

/-- The bytes at the ends of the ranges of unrecognized opcodes. -/
theorem witness_UnrecognizedOpcodeAbandonsStep :
    [0x00, 0x8B, 0x8D, 0x8F, 0xAF, 0xC0, 0xCC, 0xCE, 0xFF].all (fun op : Byte =>
      dispatchOpcode ((placed 0x0000 [op] RegFile.reset).read8 0x0000) == none) = true := by decide

theorem witness_InvalidSelectorAbandonsStep :
    let s := placed 0x0000 [0x8C, 0x30] RegFile.reset
    let t := placed 0x0000 [0x8E, 0xFF] RegFile.reset
    s.read8 s.pc = 0x8C ∧ 6 ≤ regField (s.read8 (s.pc + 1)) ∧ t.read8 t.pc = 0x8E ∧ 6 ≤ regField (t.read8 (t.pc + 1)) := by
  decide

theorem witness_UnresolvedAddressingAbandonsStep :
    let s := placed 0x0000 [0x8C, 0x2A] RegFile.reset
    s.read8 s.pc = 0x8C ∧ regField (s.read8 (s.pc + 1)) < 6 ∧ modField (s.read8 (s.pc + 1)) ≠ 3 ∧
      (modField (s.read8 (s.pc + 1)), rmField (s.read8 (s.pc + 1))) ∉ withoutBpSi := by decide

theorem witness_FailedStepChangesOnlyPc :
    ∃ t, coreStepWith eaResolved State.reset = .next t ∧
      t.report = some (.failed (.decodeFault (.unrecognizedOpcode 0x00 0x0000))) := ⟨_, rfl, rfl⟩

theorem witness_FailedStepChangesOnlyPc_two_bytes :
    ∃ t, coreStepWith eaResolved (placed 0x0000 [0x8C, 0x30] RegFile.reset) = .next t ∧
      t.report = some (.failed (.decodeFault (.invalidSegmentSelector 0x30 0x0000))) := ⟨_, rfl, rfl⟩

theorem witness_StepAdvancesPcByOneToFour :
    (∃ t, step State.reset = .next t ∧ t.pc = 0x0001) ∧ (∃ t, step movAtZero = .next t ∧ t.pc = 0x0002) ∧
      ∃ t, step (placed 0x0000 [0x8C, 0x06] RegFile.reset) = .next t ∧ t.pc = 0x0004 :=
  ⟨⟨_, rfl, rfl⟩, ⟨_, rfl, rfl⟩, _, rfl, rfl⟩

theorem witness_OnlyTwoFailuresReachable :
    ∃ t, step (placed 0x0000 [0x8C, 0x30] RegFile.reset) = .next t ∧
      t.report = some (.failed (.decodeFault (.invalidSegmentSelector 0x30 0x0000))) := ⟨_, rfl, rfl⟩

theorem witness_StepDependsOnCoreAlone :
    movAtZero.sameCore { movAtZero with fatal := true, icount := 7, breakpoints := [0x0002], imageBase := 0x1234 } :=
  ⟨rfl, rfl, rfl⟩

theorem witness_SegmentRegistersFormNoAddress :
    (∀ g : Gpr, ({ movAtZero.regs with ds := 0x1000, ss := 0x2000 } : RegFile).get (.gpr g) = movAtZero.regs.get (.gpr g)) ∧
      (∃ t, coreStepWith eaResolved movAtZero = .next t) ∧
      ∃ t, coreStepWith eaResolved { movAtZero with regs := { movAtZero.regs with ds := 0x1000, ss := 0x2000 } } = .next t :=
  ⟨fun g => by cases g <;> rfl, ⟨_, rfl⟩, _, rfl⟩

theorem witness_StepKeepsInvariant : movAtZero.Inv ∧ ∃ t, step movAtZero = .next t := ⟨by decide, _, rfl⟩

theorem witness_HostOperationsKeepInvariant_LatchRecordsFailures_HostOperationsFrame :
    { State.reset with fatal := true }.Inv ∧
      ∃ t, perform (.addBreakpoint 0x0105) { State.reset with fatal := true } = .next (.done, t) :=
  ⟨by decide, _, rfl⟩

theorem witness_LatchRecordsFailures_step : ∃ t, step State.reset = .next t ∧ t.fatal = true := ⟨_, rfl, rfl⟩

theorem witness_RegisterWriteThenRead :
    Reg16.sreg .es ≠ .gpr .ax ∧ Reg16.gpr .bx = .gpr .bx ∧ gprHasHalves .bx = true := by decide

theorem witness_HalfWritesComposeRegister :
    gprHasHalves .ax = true ∧ gprHasHalves .bx = true ∧ Gpr.sp ∈ [Gpr.sp, .bp, .si, .di] ∧
      Gpr.di ∈ [Gpr.sp, .bp, .si, .di] := by decide

theorem witness_ByteWriteThenRead_WordWriteThenRead :
    (0x0001 : Word) ≠ 0xFFFF ∧ (0x0001 : Word) ≠ 0xFFFF + 1 := by decide

theorem witness_WordFetchWrapsAtTop : (placed 0xFFFF [0xB8] RegFile.reset).pc = 0xFFFF := rfl

/-- A pair outside each routine's contract. -/
theorem witness_RoutinesRejectForeignPairs :
    (¬ ∃ h b, Operand.reg (.gpr .ax) = .half h ∧ Operand.imm8 0x00 = .imm8 b) ∧
      (¬ ∃ g w, Operand.reg (.sreg .es) = .reg (.gpr g) ∧ Operand.imm16 0x0000 = .imm16 w) ∧
      (¬ ∃ x, Operand.reg (.gpr .ax) = .reg (.sreg x) ∧
        ((∃ g, Operand.imm16 0x0000 = .reg (.gpr g)) ∨ ∃ a, Operand.imm16 0x0000 = .mem a)) ∧
      (¬ ∃ x, Operand.mem 0x0000 = .reg (.sreg x) ∧
        ((∃ g, Operand.reg (.gpr .ax) = .reg (.gpr g)) ∨ ∃ a, Operand.reg (.gpr .ax) = .mem a)) := by
  simp

theorem witness_MovMemoryForms :
    effectiveAddress (.direct 0xFFFF) State.reset = some 0xFFFF ∧
      effectiveAddress (.base .bxSi) State.reset = some 0x0000 ∧
      effectiveAddress (.disp8 .bp 0xFF) State.reset = some 0xFFFF ∧
      effectiveAddress (.disp16 .di 0x8000) State.reset = some 0x8000 := by decide

theorem witness_Frames :
    (∃ t, exec (instrMovR8 .ah 0x80) State.reset = .next t) ∧ (∃ t, exec (instrMovR16 .sp 0x8000) State.reset = .next t) ∧
      (∃ t, exec (.movRm16Sreg (.reg .sp) .ss) State.reset = .next t) ∧
      (∃ t, exec (.movRm16Sreg (.direct 0xFFFF) .ss) State.reset = .next t) ∧
      (∃ t, exec (.movSregRm16 .cs (.reg .di)) State.reset = .next t) ∧
      (∃ t, exec (.movSregRm16 .cs (.direct 0xFFFF)) State.reset = .next t) ∧
      ∃ t, exec (.intImm8 0xFF) State.reset = .next t :=
  ⟨⟨_, rfl⟩, ⟨_, rfl⟩, ⟨_, rfl⟩, ⟨_, rfl⟩, ⟨_, rfl⟩, ⟨_, rfl⟩, _, rfl⟩

theorem witness_StoreSeenByNextFetch :
    (∃ t, exec (.movRm16Sreg (.direct 0x0004) .ds) State.reset = .next t) ∧
      effectiveAddress (.direct 0x0004) State.reset =
        some (State.reset.pc + BitVec.ofNat 16 (RmOperand.direct 0x0004).instrLength) := ⟨⟨_, rfl⟩, by decide⟩

/-- The last byte that fits, and addresses just below and just past a block. -/
theorem witness_LoadBlockClips :
    ([0x11, 0x22, 0x33] : List Byte)[1]? = some 0x22 ∧ (0xFFFE : Word).toNat + 1 < 65536 ∧
      (0x000F : Word).toNat < (0x0010 : Word).toNat ∧
      (0x0010 : Word).toNat + ([1, 2, 3] : List Byte).length ≤ (0x0013 : Word).toNat := by decide

theorem witness_BreakpointSetOperations :
    Breakpoints.wf (State.reset.addBreakpoint 0x1234).breakpoints ∧
      (0x1234 : Word) ∈ (State.reset.addBreakpoint 0x1234).breakpoints ∧
      (0x1234 : Word) ∉ State.reset.breakpoints := by decide

theorem witness_TraceRecordsEachStep : ∃ records t, stepN 1 State.reset = .next (records, t) ∧ 0 < 1 :=
  ⟨_, _, rfl, by decide⟩

/-- A run that stops at its first step, with a failure alone and with a breakpoint alone. -/
theorem witness_RunStopsAtFirstStop :
    (∃ r t, runUntilBreakpoint 1 State.reset = .next (some r, t) ∧ r.hit = false) ∧
      ∃ r t, runUntilBreakpoint 1 (movAtZero.addBreakpoint 0x0002) = .next (some r, t) ∧ r.failure = none :=
  ⟨⟨_, _, rfl, rfl⟩, _, _, rfl, rfl⟩

/-- A run that stops at its second step: the step before it does not stop. -/
theorem witness_RunStopsAtFirstStop_second_step :
    ∃ r t u, runUntilBreakpoint 2 movAtZero = .next (some r, t) ∧ 1 < r.steps ∧ run 1 movAtZero = .next u :=
  ⟨_, _, _, rfl, by decide, rfl⟩

/-- Addresses `a` to `a + n - 1`, each holding 0xB0. -/
def filled : Nat → Nat → List Host.Cell
  | _, 0 => []
  | a, n + 1 => (a, 0xB0) :: filled (a + 1) n

theorem read_filled (a n k : Nat) (h1 : a ≤ k) (h2 : k < a + n) : Memory.read (filled a n) k = 0xB0 := by
  induction n generalizing a with
  | zero => omega
  | succ n ih =>
    unfold filled Memory.read
    split
    · rfl
    · exact ih (a + 1) (by simp at *; omega) (by omega)

theorem witness_EndlessRunExists :
    let s := { State.reset with mem := filled 0 65536 }
    (∀ a : Word, a.toNat % 2 = 0 → s.read8 a = 0xB0) ∧ s.pc.toNat % 2 = 0 ∧ s.breakpoints = [] :=
  ⟨fun a _ => read_filled 0 65536 a.toNat (Nat.zero_le _) (by have := a.isLt; omega), rfl, rfl⟩

end Sys2Proof.Machine
end

section
/-! PROOF. Words and their bytes: the numeric value of a concatenation and of a sign extension (00_scope.md R5, R6). -/

namespace Sys2Proof

/-- The high byte counts 256s: concatenation shifts it past the eight bits that the low byte fills (00_scope.md R5). -/
theorem toNat_concatBytes (hi lo : Byte) : (concatBytes hi lo).toNat = hi.toNat * 256 + lo.toNat := by
  calc (concatBytes hi lo).toNat
      = hi.toNat <<< 8 ||| lo.toNat := BitVec.toNat_append hi lo
    _ = hi.toNat <<< 8 + lo.toNat := (Nat.shiftLeft_add_eq_or_of_lt lo.isLt hi.toNat).symm
    _ = hi.toNat * 256 + lo.toNat := by rw [Nat.shiftLeft_eq]

/-- `0xFF00 | b` is `b - 256` as a signed word, and `0x0000 | b` is `b`: the two's-complement value of the byte in
either case of its sign bit (00_scope.md R6). -/
theorem toInt_sext16 (b : Byte) : (sext16 b).toInt = b.toInt := by
  have hb := b.isLt
  have hsign := BitVec.msb_eq_decide b
  unfold sext16
  rw [BitVec.toInt_eq_toNat_cond, BitVec.toInt_eq_toNat_cond]
  split
  case isTrue hneg =>
    have hge : 128 ≤ b.toNat := by simpa [hneg] using hsign
    have hval : (concatBytes 0xFF b).toNat = 255 * 256 + b.toNat := toNat_concatBytes 0xFF b
    rw [hval]
    omega
  case isFalse hpos =>
    have hlt : b.toNat < 128 := by simpa [hpos] using hsign
    have hval : (concatBytes 0x00 b).toNat = b.toNat := by simp [toNat_concatBytes]
    rw [hval]
    omega

/-- Settles O11, from the byte lanes of a concatenation and the two values above. -/
theorem bytesComposeWords : Obligations.BytesComposeWords :=
  ⟨toNat_concatBytes, fun hi lo => ⟨lowByte_concatBytes hi lo, highByte_concatBytes hi lo⟩,
    concatBytes_high_low, toInt_sext16⟩

end Sys2Proof
end

section
/-! PROOF. The decoder is never short of bytes: the four bytes that a step gives it are as many as the longest
instruction has (30_encoding.md R75), so it does not answer `truncated`. -/

namespace Sys2Proof

/-- `CheckModRM` rejects by naming the ModRM byte and never for want of bytes (40_operand_decoder.md R116). -/
theorem checkModRm_ne_truncated (resolved : Config.AddressingSet) (m : Byte) :
    checkModRm resolved m ≠ .error .truncated := by
  unfold checkModRm
  split
  · simp
  · split <;> simp

/-- A displacement or direct address is at most two bytes long (40_operand_decoder.md R106). -/
theorem takeRm_two_bytes (mod : BitVec 2) (rm : BitVec 3) (a b : Byte) (rest : List Byte) :
    ∃ p, takeRm mod rm (a :: b :: rest) = .ok p := by
  unfold takeRm
  split
  · split <;> exact ⟨_, rfl⟩
  all_goals exact ⟨_, rfl⟩

/-- The ModRM byte and what follows it are at most three bytes long. -/
theorem takeModRm_ne_truncated (resolved : Config.AddressingSet) (m a b : Byte) (rest : List Byte) :
    takeModRm resolved (m :: a :: b :: rest) ≠ .error .truncated := by
  have hcheck := checkModRm_ne_truncated resolved m
  obtain ⟨p, hrm⟩ := takeRm_two_bytes (modField m) (rmField m) a b rest
  cases hm : checkModRm resolved m with
  | error e => simpa [takeModRm, take8, hm] using hcheck
  | ok s => simp [takeModRm, take8, hm, hrm]

/-- Four bytes are enough for every instruction (30_encoding.md R75). -/
theorem decodeWith_four_bytes_ne_truncated (resolved : Config.AddressingSet) (op a b c : Byte) (rest : List Byte) :
    decodeWith resolved (op :: a :: b :: c :: rest) ≠ .error .truncated := by
  have hmodrm := takeModRm_ne_truncated resolved a b c rest
  cases hop : dispatchOpcode op with
  | none => simp [decodeWith, take8, hop]
  | some cls =>
    cases cls with
    | movR8Imm8 _ | intImm8 => simp [decodeWith, take8, hop]
    | movR16Imm16 g => simp [decodeWith, take8, take16, hop]
    | movRm16Sreg | movSregRm16 =>
      cases hm : takeModRm resolved (a :: b :: c :: rest) with
      | error e => simpa [decodeWith, take8, hop, hm] using hmodrm
      | ok p => simp [decodeWith, take8, hop, hm]

end Sys2Proof
end

section
/-! PROOF. What one step of the core does, said once: PC passes the bytes consumed, at most one place is written, and the
outcome is recorded. Every instruction and every decode fault has this form. -/

namespace Sys2Proof

open Machine

namespace Machine

/-- The place a step writes, with the value it gets: a register or a word of memory, or nothing at all. -/
inductive Write where
  | nothing
  | reg (i : Reg16) (v : Word)
  | word (a v : Word)

/-- The state after the write. -/
def Write.apply (w : Write) (s : State) : State :=
  match w with
  | .nothing => s
  | .reg i v => s.setReg i v
  | .word a v => s.write16 a v

/-- How a step that consumes `n` bytes, makes the write `w` and has the outcome `o` ends. -/
def State.endStep (s : State) (w : Write) (n : Nat) (o : StepOutcome) : State := (w.apply (s.advance n)).finish o

/-- A word written to a descriptor (41_dispatch.md R135); those that are no 16-bit destination are not written. -/
def Operand.write (d : Operand) (v : Word) : Write :=
  match d with
  | .reg r => .reg r v
  | .mem a => .word a v
  | .imm8 _ | .imm16 _ | .half _ => .nothing

section
variable (s : State) (w : Write) (n : Nat) (o : StepOutcome)

@[simp] theorem State.endStep_pc : (s.endStep w n o).pc = s.pc + BitVec.ofNat 16 n := by cases w <;> rfl
@[simp] theorem State.endStep_breakpoints : (s.endStep w n o).breakpoints = s.breakpoints := by cases w <;> rfl
@[simp] theorem State.endStep_icount : (s.endStep w n o).icount = s.icount := by cases w <;> rfl
@[simp] theorem State.endStep_imageBase : (s.endStep w n o).imageBase = s.imageBase := by cases w <;> rfl
@[simp] theorem State.endStep_fatal : (s.endStep w n o).fatal = s.fatal := by cases w <;> rfl
@[simp] theorem State.endStep_report : (s.endStep w n o).report = some o := rfl

variable {s}

/-- The memory keeps its canonical form, whatever is written. -/
theorem State.wf_endStep (h : Memory.wf s.mem) : Memory.wf (s.endStep w n o).mem := by
  cases w with
  | nothing => exact h
  | reg i v => exact h
  | word a v => exact State.wf_write16 (s := s.advance n) h a v

/-- The same write in states with the same core leaves the same core. -/
theorem State.sameCore_endStep {t : State} (h : s.sameCore t) : (s.endStep w n o).sameCore (t.endStep w n o) := by
  obtain ⟨hregs, hpc, hmem⟩ := h
  cases w with
  | nothing => exact ⟨hregs, by simp [hpc], hmem⟩
  | reg i v => exact ⟨congrArg (·.set i v) hregs, by simp [hpc], hmem⟩
  | word a v =>
    exact ⟨hregs, by simp [hpc], by simp [State.endStep, Write.apply, hmem]⟩

end

end Machine

/-- A register's value with the byte `b` in the half `h` and the other half kept (10_state.md R17). -/
def Reg8.compose (h : Reg8) (old : Word) (b : Byte) : Word :=
  if h.number < 4 then concatBytes (highByte old) b else concatBytes b (lowByte old)

/-- A byte written to a half, as a write of its whole register. -/
def Reg8.write (h : Reg8) (b : Byte) (s : State) : Write :=
  .reg (.gpr h.owner) (h.compose (s.reg (.gpr h.owner)) b)

/-- The word that a register/memory operand holds (41_dispatch.md R134), which `readOperand16_resolveRm` says there
always is. -/
def RmOperand.value (rm : RmOperand) (s : State) : Word := (s.readOperand16 (resolveRm rm s)).getD 0

/-- What an instruction writes, by the registers and memory it starts from. -/
def Instr.write (i : Instr) (s : State) : Write :=
  match i with
  | .movAL b => Reg8.al.write b s
  | .movCL b => Reg8.cl.write b s
  | .movDL b => Reg8.dl.write b s
  | .movBL b => Reg8.bl.write b s
  | .movAH b => Reg8.ah.write b s
  | .movCH b => Reg8.ch.write b s
  | .movDH b => Reg8.dh.write b s
  | .movBH b => Reg8.bh.write b s
  | .movAX w => .reg (.gpr .ax) w
  | .movCX w => .reg (.gpr .cx) w
  | .movDX w => .reg (.gpr .dx) w
  | .movBX w => .reg (.gpr .bx) w
  | .movSP w => .reg (.gpr .sp) w
  | .movBP w => .reg (.gpr .bp) w
  | .movSI w => .reg (.gpr .si) w
  | .movDI w => .reg (.gpr .di) w
  | .movRm16Sreg dst src => (resolveRm dst s).write (s.reg (.sreg src))
  | .movSregRm16 dst src => .reg (.sreg dst) (src.value s)
  | .intImm8 _ => .nothing

/-- How an instruction whose opcode byte is at `opAddr` ends: INT with its notice, every other one with `Ok`. -/
def Instr.outcome (i : Instr) (opAddr : Word) : StepOutcome :=
  match i with
  | .intImm8 vector => .okNotice (.unimplementedInterrupt vector opAddr)
  | _ => .ok

/-- What an instruction writes depends on the registers and memory alone (10_state.md R28). -/
theorem Instr.write_congr (i : Instr) {s t : State} (hregs : s.regs = t.regs) (hmem : s.mem = t.mem) :
    i.write s = i.write t := by
  cases s
  cases t
  cases hregs
  cases hmem
  rfl

namespace Machine

/-- A write to a half replaces its register by the composed value. -/
theorem RegFile.set8_owner_compose (r : RegFile) (h : Reg8) (b : Byte) :
    r.set8 h.owner h.half b = some (r.set (.gpr h.owner) (h.compose (r.get (.gpr h.owner)) b)) := by
  cases h <;> rfl

theorem moveImm8_eq (h : Reg8) (b : Byte) (s : State) : moveImm8 h b s = s.endStep (h.write b s) 2 .ok := by
  simp only [moveImm8, routineMovR8Imm8, State.advance_regs, RegFile.set8_owner_compose]
  rfl

theorem moveImm16_eq (g : Gpr) (w : Word) (s : State) : moveImm16 g w s = s.endStep (.reg (.gpr g) w) 3 .ok := by
  rw [moveImm16, routineMovR16Imm16, moveWord_accepted s.pc rfl rfl rfl]
  rfl

/-- A register/memory operand always has a word to read. -/
theorem readOperand16_resolveRm (rm : RmOperand) (s : State) :
    s.readOperand16 (resolveRm rm s) = some (rm.value s) := by
  rcases resolveRm_cases rm s with ⟨g, -, h, -⟩ | ⟨a, -, h⟩ <;> simp [RmOperand.value, h, State.readOperand16]

theorem execMovRm16Sreg_eq (dst : RmOperand) (src : SReg) (s : State) : execMovRm16Sreg dst src s =
    .next (s.endStep ((resolveRm dst s).write (s.reg (.sreg src))) dst.instrLength .ok) := by
  unfold execMovRm16Sreg routineMovRM16Sreg
  rcases resolveRm_cases dst s with ⟨g, -, h, -⟩ | ⟨a, -, h⟩
  all_goals
    rw [h, moveWord_accepted s.pc rfl rfl rfl]
    rfl

theorem execMovSregRm16_eq (dst : SReg) (src : RmOperand) (s : State) : execMovSregRm16 dst src s =
    .next (s.endStep (.reg (.sreg dst) (src.value s)) src.instrLength .ok) := by
  have hread : (s.advance src.instrLength).readOperand16 (resolveRm src s) = some (src.value s) :=
    readOperand16_resolveRm src s
  have haccepts : Routine.movSregRM16.accepts (.reg (.sreg dst)) (resolveRm src s) = true := by
    rcases resolveRm_cases src s with ⟨g, -, h, -⟩ | ⟨a, -, h⟩ <;> rw [h] <;> rfl
  unfold execMovSregRm16 routineMovSregRM16
  rw [moveWord_accepted s.pc haccepts hread rfl]
  rfl

/-- Every instruction passes its own length, makes its write and ends with its outcome. -/
theorem exec_eq (i : Instr) (s : State) : exec i s = .next (s.endStep (i.write s) i.length (i.outcome s.pc)) := by
  cases i with
  | movAL b | movCL b | movDL b | movBL b | movAH b | movCH b | movDH b | movBH b =>
    exact congrArg Host.Outcome.next (moveImm8_eq _ b s)
  | movAX w | movCX w | movDX w | movBX w | movSP w | movBP w | movSI w | movDI w =>
    exact congrArg Host.Outcome.next (moveImm16_eq _ w s)
  | movRm16Sreg dst src => exact execMovRm16Sreg_eq dst src s
  | movSregRm16 dst src => exact execMovSregRm16_eq dst src s
  | intImm8 vector => rfl

/-- The core's step where the bytes at PC are an instruction. -/
theorem coreStepWith_of_decoded {resolved : Config.AddressingSet} {s : State} {i : Instr} {rest : List Byte}
    (h : decodeWith resolved (fetchWindow s) = .ok (i, rest)) :
    coreStepWith resolved s = .next (s.endStep (i.write s) i.length (i.outcome s.pc)) := by
  rw [coreStepWith, h]
  exact exec_eq i s

/-- The core's step where the decoder rejects the bytes at PC: nothing is written. -/
theorem coreStepWith_of_rejected {resolved : Config.AddressingSet} {s : State} {e : DecodeError} {f : Failure}
    (h : decodeWith resolved (fetchWindow s) = .error e) (hf : decodeFailure e s.pc = some f) :
    coreStepWith resolved s = .next (s.endStep .nothing e.consumed (.failed f)) := by
  rw [coreStepWith, h]
  exact takeDecodeError_next hf

/-- The bytes at PC are an instruction, or the decoder rejects them with a failure of the step. -/
theorem decode_fetchWindow_cases (resolved : Config.AddressingSet) (s : State) :
    (∃ i rest, decodeWith resolved (fetchWindow s) = .ok (i, rest)) ∨
      ∃ e f, decodeWith resolved (fetchWindow s) = .error e ∧ decodeFailure e s.pc = some f := by
  cases h : decodeWith resolved (fetchWindow s) with
  | ok p => exact .inl ⟨p.1, p.2, rfl⟩
  | error e =>
    refine .inr ⟨e, ?_⟩
    cases e with
    | unrecognizedOpcode op => exact ⟨_, rfl, rfl⟩
    | invalidSegmentSelector m => exact ⟨_, rfl, rfl⟩
    | unresolvedAddressing m => exact ⟨_, rfl, rfl⟩
    | truncated => exact absurd h (decodeWith_four_bytes_ne_truncated resolved _ _ _ _ [])

/-- The core's step always answers a next state, and that state has the one form. -/
theorem coreStepWith_endStep (resolved : Config.AddressingSet) (s : State) :
    ∃ w n o, coreStepWith resolved s = .next (s.endStep w n o) := by
  rcases decode_fetchWindow_cases resolved s with ⟨i, rest, hdec⟩ | ⟨e, f, hdec, hf⟩
  · exact ⟨_, _, _, coreStepWith_of_decoded hdec⟩
  · exact ⟨_, _, _, coreStepWith_of_rejected hdec hf⟩

/-- Two states with the same core step in the same way: same write, same length, same outcome (10_state.md R28). -/
theorem coreStepWith_endStep_of_sameCore (resolved : Config.AddressingSet) {s t : State} (h : s.sameCore t) :
    ∃ w n o, coreStepWith resolved s = .next (s.endStep w n o) ∧ coreStepWith resolved t = .next (t.endStep w n o) := by
  obtain ⟨hregs, hpc, hmem⟩ := h
  have hwin : fetchWindow s = fetchWindow t := by simp [fetchWindow, State.read8, hpc, hmem]
  rcases decode_fetchWindow_cases resolved s with ⟨i, rest, hdec⟩ | ⟨e, f, hdec, hf⟩
  · refine ⟨_, _, _, coreStepWith_of_decoded hdec, ?_⟩
    rw [i.write_congr hregs hmem, hpc]
    exact coreStepWith_of_decoded (hwin ▸ hdec)
  · exact ⟨_, _, _, coreStepWith_of_rejected hdec hf, coreStepWith_of_rejected (hwin ▸ hdec) (hpc ▸ hf)⟩

end Machine

end Sys2Proof
end

section
/-! PROOF. The statements about the state as a whole (10_state.md): reset and every step meet the invariant, a step
depends on the core alone, and segment registers form no address. -/

namespace Sys2Proof

open Machine

namespace Machine

/-- The latch is set after any step that the controller ends with a failure (10_state.md R27). -/
theorem State.latchFailure_records (s : State) (h : s.latchFailure.failed = true) :
    s.latchFailure.fatal = true := by
  have hfailed : s.failed = true := h
  simp [hfailed]

/-- The base/index sums are of general registers (40_operand_decoder.md R108). -/
theorem Base.address_congr (b : Base) {s t : State} (h : ∀ g : Gpr, s.reg (.gpr g) = t.reg (.gpr g)) :
    Base.address b s = Base.address b t := by
  cases b <;> simp only [Base.address, h]

/-- Effective addresses depend on the general registers alone (20_memory.md R40). -/
theorem effectiveAddress_congr (rm : RmOperand) {s t : State} (h : ∀ g : Gpr, s.reg (.gpr g) = t.reg (.gpr g)) :
    effectiveAddress rm s = effectiveAddress rm t := by
  cases rm with
  | reg g => rfl
  | direct a => rfl
  | base b | disp8 b d | disp16 b d => simp only [effectiveAddress, Base.address_congr b h]

/-- The same bytes fetched at the same PC end a step at the same PC with the same outcome, whatever the registers
hold. -/
theorem coreStepWith_pc_report_of_fetchWindow {resolved : Config.AddressingSet} {s t s' t' : State}
    (hwin : fetchWindow t = fetchWindow s) (hpc : t.pc = s.pc)
    (hs : coreStepWith resolved s = .next s') (ht : coreStepWith resolved t = .next t') :
    t'.pc = s'.pc ∧ t'.report = s'.report := by
  rcases decode_fetchWindow_cases resolved s with ⟨i, rest, hdec⟩ | ⟨e, f, hdec, hf⟩
  · rw [coreStepWith_of_decoded hdec] at hs
    rw [coreStepWith_of_decoded (hwin ▸ hdec)] at ht
    cases hs
    cases ht
    simp [hpc]
  · rw [coreStepWith_of_rejected hdec hf] at hs
    rw [coreStepWith_of_rejected (hwin ▸ hdec) (hpc ▸ hf)] at ht
    cases hs
    cases ht
    simp [hpc]

end Machine

/-- Settles O2: no cell, no breakpoint and no step yet. -/
theorem resetMeetsInvariant : Obligations.ResetMeetsInvariant := ⟨State.wf_reset, .nil, nofun⟩

/-- Settles O25: the core's step writes at most one word of memory and no breakpoint, and the controller's latch follows
the outcome. -/
theorem stepKeepsInvariant : Obligations.StepKeepsInvariant := by
  intro s t hinv hstep
  obtain ⟨hmem, hbp, -⟩ := hinv
  obtain ⟨w, n, o, hcore⟩ := coreStepWith_endStep eaResolved s.countStep
  obtain ⟨u, hu, rfl⟩ := afterStep_eq_next hstep
  obtain rfl : s.countStep.endStep w n o = u := by simpa [hcore] using hu
  exact ⟨State.wf_endStep w n o (s := s.countStep) hmem, by simpa using hbp, State.latchFailure_records _⟩

/-- Settles O23: both states make the same write, which keeps them the same in the core and touches nothing else. -/
theorem stepDependsOnCoreAlone : Obligations.StepDependsOnCoreAlone := by
  intro resolved s t hcore
  obtain ⟨w, n, o, hs, ht⟩ := coreStepWith_endStep_of_sameCore resolved hcore
  exact ⟨_, _, hs, ht, State.sameCore_endStep w n o hcore, by simp [State.sameHostState]⟩

/-- Settles O24: a fetch reads no register, and the effective addresses read the general ones. -/
theorem segmentRegistersFormNoAddress : Obligations.SegmentRegistersFormNoAddress := by
  intro resolved s s' t' r hgpr
  exact ⟨rfl, fun rm => effectiveAddress_congr rm hgpr, coreStepWith_pc_report_of_fetchWindow rfl rfl⟩

end Sys2Proof
end

section
/-! PROOF. The register file's laws: a register written is read back whole, and halves compose their register
(10_state.md R15, R17). -/

namespace Sys2Proof

open Machine

namespace Machine

theorem RegFile.get8_of_halves {g : Gpr} (h : gprHasHalves g = true) (r : RegFile) :
    r.get8 g .low = some (lowByte (r.get (.gpr g))) ∧ r.get8 g .high = some (highByte (r.get (.gpr g))) := by
  simp [RegFile.get8, h]

theorem RegFile.set8_low_of_halves {g : Gpr} (h : gprHasHalves g = true) (r : RegFile) (b : Byte) :
    r.set8 g .low b = some (r.set (.gpr g) (concatBytes (highByte (r.get (.gpr g))) b)) := by
  simp [RegFile.set8, h]

theorem RegFile.set8_high_of_halves {g : Gpr} (h : gprHasHalves g = true) (r : RegFile) (b : Byte) :
    r.set8 g .high b = some (r.set (.gpr g) (concatBytes b (lowByte (r.get (.gpr g))))) := by
  simp [RegFile.set8, h]

/-- An access to a half of a register without halves is the register file's contract violation. -/
theorem RegFile.get8_set8_of_no_halves {g : Gpr} (h : gprHasHalves g = false) (r : RegFile) (half : Half)
    (b : Byte) : r.get8 g half = none ∧ r.set8 g half b = none := by
  simp [RegFile.get8, RegFile.set8, h]

/-- The later of two writes to one register stays. -/
@[simp] theorem RegFile.set_set (r : RegFile) (i : Reg16) (v w : Word) : (r.set i v).set i w = r.set i w := by
  rcases i with g | g <;> cases g <;> rfl

/-- The registers without halves are the four of the upper half of the index space (10_state.md R11). -/
theorem gprHasHalves_eq_false_of_mem_upper : ∀ g ∈ [Gpr.sp, .bp, .si, .di], gprHasHalves g = false := by decide

end Machine

/-- Settles O27, by the register file's own read-after-write law; the halves are read from the register just written. -/
theorem registerWriteThenRead : Obligations.RegisterWriteThenRead := by
  intro s i v
  refine ⟨RegFile.get_set_same s.regs i v, fun j hj => RegFile.get_set_other s.regs v hj, ?_, rfl⟩
  rintro g rfl hg
  simpa using RegFile.get8_of_halves hg (s.setReg (.gpr g) v).regs

/-- Settles O28: the second of two half writes keeps the half that the first one wrote. -/
theorem halfWritesComposeRegister : Obligations.HalfWritesComposeRegister := by
  refine ⟨RegFile.set8_owner_compose, fun r g lo hi hg => ?_,
    fun r g half b hg => RegFile.get8_set8_of_no_halves (gprHasHalves_eq_false_of_mem_upper g hg) r half b⟩
  simp [RegFile.set8_low_of_halves hg, RegFile.set8_high_of_halves hg]

end Sys2Proof
end

section
/-! PROOF. The statements about memory (20_memory.md): what is read after a byte, a word or a block is written, the word
fetch, and a store that the next fetch sees. -/

namespace Sys2Proof

open Machine

namespace Machine

/-! Bytes and words -/

theorem State.read8_write8_same (s : State) (a : Word) (v : Byte) : (s.write8 a v).read8 a = v := by
  simp [State.read8, Memory.read_write]

theorem State.read8_write8_other (s : State) {a b : Word} (h : b ≠ a) (v : Byte) :
    (s.write8 a v).read8 b = s.read8 b := by
  have hne : b.toNat ≠ a.toNat := fun e => h (BitVec.eq_of_toNat_eq e)
  simp [State.read8, Memory.read_write, hne]

/-- The two addresses of a word differ, at 0xFFFF too (20_memory.md R44). -/
theorem word_ne_succ (a : Word) : a ≠ a + 1 := by bv_omega

/-- The low byte is at the word's own address: the later write, of the high byte, is at another one. -/
theorem State.read8_write16_low (s : State) (a w : Word) : (s.write16 a w).read8 a = lowByte w := by
  rw [State.write16, State.read8_write8_other _ (word_ne_succ a), State.read8_write8_same]

theorem State.read8_write16_high (s : State) (a w : Word) : (s.write16 a w).read8 (a + 1) = highByte w := by
  rw [State.write16, State.read8_write8_same]

theorem State.read8_write16_other (s : State) {a b : Word} (hlow : b ≠ a) (hhigh : b ≠ a + 1) (w : Word) :
    (s.write16 a w).read8 b = s.read8 b := by
  rw [State.write16, State.read8_write8_other _ hhigh, State.read8_write8_other _ hlow]

theorem State.read16_write16 (s : State) (a w : Word) : (s.write16 a w).read16 a = w := by
  rw [State.read16, State.read8_write16_high, State.read8_write16_low, concatBytes_high_low]

/-! Blocks (20_memory.md R56) -/

theorem Memory.load_cons_of_lt (b : Byte) (data : List Byte) {k : Nat} (h : k < Config.memSize) (m : List Host.Cell) :
    Memory.load (b :: data) k m = Memory.load data (k + 1) (Memory.write m k b) := by
  rw [Memory.load, if_pos h]

/-- An address below a block or past its end reads as before, whether or not the block is clipped. -/
theorem Memory.read_load_outside (data : List Byte) (m : List Host.Cell) {k j : Nat}
    (h : j < k ∨ k + data.length ≤ j) : Memory.read (Memory.load data k m) j = Memory.read m j := by
  induction data generalizing k m with
  | nil => rfl
  | cons b data ih =>
    rw [List.length_cons] at h
    unfold Memory.load
    split
    · have hne : j ≠ k := by omega
      rw [ih _ (by omega), Memory.read_write, if_neg hne]
    · rfl

/-- A byte of a block that fits is where the block puts it: the bytes after it go to greater addresses. -/
theorem Memory.read_load_inside {data : List Byte} {i : Nat} {b : Byte} (hb : data[i]? = some b) {k : Nat}
    (hfit : k + i < Config.memSize) (m : List Host.Cell) : Memory.read (Memory.load data k m) (k + i) = b := by
  induction data generalizing i k m with
  | nil => simp at hb
  | cons c data ih =>
    rw [Memory.load_cons_of_lt c data (by omega)]
    cases i with
    | zero =>
      obtain rfl : c = b := by simpa using hb
      rw [Memory.read_load_outside _ _ (by omega), Memory.read_write, if_pos (Nat.add_zero k)]
    | succ i =>
      have hstep : k + (i + 1) = k + 1 + i := by omega
      rw [hstep] at hfit ⊢
      exact ih (by simpa using hb) hfit _

/-! Fetches -/

/-- Two byte fetches read the word at PC, low byte first (40_operand_decoder.md R100). -/
theorem State.fetch8_fetch8 (s : State) :
    s.fetch8.1 = s.read8 s.pc ∧ s.fetch8.2.fetch8.1 = s.read8 (s.pc + 1) := ⟨rfl, rfl⟩

/-- A word stored at the end of a step's own instruction is what the next two byte fetches read: PC is there after the
step (20_memory.md R54). -/
theorem State.fetch8_endStep_word (s : State) (v : Word) (n : Nat) (o : StepOutcome) :
    let t := s.endStep (.word (s.pc + BitVec.ofNat 16 n) v) n o
    t.fetch8.1 = lowByte v ∧ t.fetch8.2.fetch8.1 = highByte v := by
  intro t
  obtain ⟨hfirst, hsecond⟩ := t.fetch8_fetch8
  have hpc : t.pc = s.pc + BitVec.ofNat 16 n := State.endStep_pc s _ n o
  rw [hfirst, hsecond, hpc]
  exact ⟨State.read8_write16_low (s.advance n) _ v, State.read8_write16_high (s.advance n) _ v⟩

/-- The memory form of a store writes the word at its effective address (40_operand_decoder.md R106). -/
theorem write_resolveRm_of_effectiveAddress {rm : RmOperand} {s : State} {a : Word}
    (h : effectiveAddress rm s = some a) (v : Word) : (resolveRm rm s).write v = .word a v := by
  rcases resolveRm_cases rm s with ⟨g, -, -, hnone⟩ | ⟨a', hsome, hrm⟩
  · simp [hnone] at h
  · obtain rfl : a' = a := by simpa [hsome] using h
    rw [hrm, Operand.write]

end Machine

/-- Settles O30, from what each byte reads after the word is written. -/
theorem wordWriteThenRead : Obligations.WordWriteThenRead := by
  intro s a w
  exact ⟨s.read16_write16 a w, s.read8_write16_low a w, s.read8_write16_high a w,
    fun b hlow hhigh => s.read8_write16_other hlow hhigh w, rfl, rfl⟩

/-- Settles O48: the step leaves PC at the address that its store wrote. -/
theorem storeSeenByNextFetch : Obligations.StoreSeenByNextFetch := by
  intro s t rm x hexec haddr
  have hstore := execMovRm16Sreg_eq rm x s
  rw [write_resolveRm_of_effectiveAddress haddr] at hstore
  obtain rfl := Host.Outcome.next.inj (hstore.symm.trans hexec)
  exact s.fetch8_endStep_word (s.reg (.sreg x)) rm.instrLength .ok

/-- Settles O49, by induction on the block; a byte's place is inside the address space, so its word address is its
number. -/
theorem loadBlockClips : Obligations.LoadBlockClips := by
  intro s data base
  refine ⟨fun j b hb hfit => ?_, fun a ha => Memory.read_load_outside data s.mem ha, rfl⟩
  have haddr : (BitVec.ofNat 16 (base.toNat + j)).toNat = base.toNat + j :=
    Nat.mod_eq_of_lt hfit
  rw [State.read8, haddr]
  exact Memory.read_load_inside hb hfit s.mem

/-- Settles O29, from what a byte reads after the write, at the address written and at another. -/
theorem byteWriteThenRead : Obligations.ByteWriteThenRead := by
  intro s a b v
  exact ⟨s.read8_write8_same a v, fun h => s.read8_write8_other h v⟩

/-- Settles O32: 0xFFFF is followed by 0x0000 and, two further, by 0x0001. -/
theorem wordFetchWrapsAtTop : Obligations.WordFetchWrapsAtTop := by
  intro s
  refine ⟨rfl, fun hpc => ?_⟩
  have hnext : (0xFFFF : Word) + 1 = 0x0000 := by decide
  have hend : (0xFFFF : Word) + BitVec.ofNat 16 2 = 0x0001 := by decide
  simp only [State.fetch16, State.advance, hpc, hnext, hend, State.withPc]

end Sys2Proof
end

section
/-! PROOF. The encoding's layers as equivalences: what each part of the decoder accepts is what the encoder writes for
it (30_encoding.md R71 to R73, 40_operand_decoder.md R106, R109, R116). -/

namespace Sys2Proof

/-! Numbers, and the places of the ModRM fields -/

@[simp] theorem Gpr.number_ofNumber (n : BitVec 3) : (Gpr.ofNumber n).number = n := by revert n; decide

@[simp] theorem Reg8.number_ofNumber (n : BitVec 3) : (Reg8.ofNumber n).number = n := by revert n; decide

@[simp] theorem Base.number_ofNumber (n : BitVec 3) : (Base.ofNumber n).number = n := by revert n; decide

/-- The r/m number 6 is BP's, the one that class 0 takes for the direct address (40_operand_decoder.md R109). -/
theorem Base.number_eq_six_iff {b : Base} : b.number = 6 ↔ b = .bp := by cases b <;> decide

theorem SReg.ofSelector_eq_some_iff {n : BitVec 3} {s : SReg} : SReg.ofSelector n = some s ↔ n = s.selector := by
  refine ⟨fun h => ?_, fun h => h ▸ s.ofSelector_selector⟩
  unfold SReg.ofSelector at h
  split at h <;> cases h <;> rfl

@[simp] theorem modField_modRmByte (mod : BitVec 2) (reg rm : BitVec 3) : modField (modRmByte mod reg rm) = mod := by
  unfold modField modRmByte; ext i hi; simp; grind

@[simp] theorem regField_modRmByte (mod : BitVec 2) (reg rm : BitVec 3) : regField (modRmByte mod reg rm) = reg := by
  unfold regField modRmByte; ext i hi; simp; grind

@[simp] theorem rmField_modRmByte (mod : BitVec 2) (reg rm : BitVec 3) : rmField (modRmByte mod reg rm) = rm := by
  unfold rmField modRmByte; ext i hi; simp; grind

@[simp] theorem modRmByte_fields (m : Byte) : modRmByte (modField m) (regField m) (rmField m) = m := by
  unfold modField regField rmField modRmByte; ext i hi; simp; grind

/-! Opcode bytes (30_encoding.md R73, R79 to R83) -/

/-- The opcode byte of a class. -/
def OpClass.opcode : OpClass → Byte
  | .movR8Imm8 h => opcMovR8Imm8 + h.number.setWidth 8
  | .movR16Imm16 g => opcMovR16Imm16 + g.number.setWidth 8
  | .movRm16Sreg => opcMovRm16Sreg
  | .movSregRm16 => opcMovSregRm16
  | .intImm8 => opcIntImm8

/-- An opcode byte of an immediate family is the family's first byte plus the number in bits 2:0. -/
theorem byte_eq_add_low_bits {op first : Byte} (hhigh : op.extractLsb' 3 5 = first.extractLsb' 3 5)
    (hlow : first.extractLsb' 0 3 = 0) : op = first + (op.extractLsb' 0 3).setWidth 8 := by
  have hnum := congrArg BitVec.toNat hhigh
  have hzero := congrArg BitVec.toNat hlow
  apply BitVec.eq_of_toNat_eq
  simp [Nat.shiftRight_eq_div_pow] at hnum hzero ⊢
  omega

@[simp] theorem dispatchOpcode_opcode (c : OpClass) : dispatchOpcode c.opcode = some c := by
  cases c with
  | movR8Imm8 h => cases h <;> rfl
  | movR16Imm16 g => cases g <;> rfl
  | movRm16Sreg | movSregRm16 | intImm8 => rfl

theorem dispatchOpcode_eq_some_iff {op : Byte} {c : OpClass} : dispatchOpcode op = some c ↔ op = c.opcode := by
  refine ⟨fun h => ?_, fun h => h ▸ dispatchOpcode_opcode c⟩
  unfold dispatchOpcode at h
  split_ifs at h with h8 h16 h8C h8E hCD
  all_goals obtain rfl := Option.some.inj h
  · simpa [OpClass.opcode] using byte_eq_add_low_bits h8 rfl
  · simpa [OpClass.opcode] using byte_eq_add_low_bits h16 rfl
  · exact h8C
  · exact h8E
  · exact hCD

/-! Operands -/

@[simp] theorem take8_cons (b : Byte) (rest : List Byte) : take8 (b :: rest) = .ok (b, rest) := rfl

theorem take8_eq_ok_iff {bytes rest : List Byte} {b : Byte} : take8 bytes = .ok (b, rest) ↔ bytes = b :: rest := by
  cases bytes <;> simp [take8]

theorem take16_eq_ok_iff {bytes rest : List Byte} {w : Word} :
    take16 bytes = .ok (w, rest) ↔ bytes = encodeWord w ++ rest := by
  refine ⟨fun h => ?_, fun h => by simp [h, encodeWord, take16]⟩
  unfold take16 at h
  split at h
  · obtain ⟨rfl, rfl⟩ := Prod.mk.inj (Except.ok.inj h)
    simp [encodeWord]
  · cases h

/-- `CheckModRM` accepts the ModRM bytes with a legal selector and a resolved pair (40_operand_decoder.md R115, R116). -/
theorem checkModRm_eq_ok_iff {resolved : Config.AddressingSet} {m : Byte} {s : SReg} :
    checkModRm resolved m = .ok s ↔
      regField m = s.selector ∧ (modField m = 3 ∨ resolved.contains (modField m, rmField m) = true) := by
  rw [← SReg.ofSelector_eq_some_iff]
  unfold checkModRm
  cases SReg.ofSelector (regField m) with
  | none => simp
  | some s' =>
    simp only [Option.some.injEq]
    split
    · next hbad =>
      simp only [reduceCtorEq, false_iff]
      tauto
    · next hgood =>
      simp only [Except.ok.injEq]
      tauto

/-- Well-formed: not `[BP]` without a displacement, and the pair is resolved unless it is of class 3. -/
theorem RmOperand.wellFormedWith_iff {resolved : Config.AddressingSet} {rm : RmOperand} :
    rm.wellFormedWith resolved = true ↔ rm ≠ .base .bp ∧ (rm.fields.1 = 3 ∨ resolved.contains rm.fields = true) := by
  cases rm <;> simp [RmOperand.wellFormedWith, RmOperand.fields]

/-- An operand's own fields and bytes are read as that operand, `[BP]` without a displacement excepted. -/
theorem takeRm_fields {x : RmOperand} (hbp : x ≠ .base .bp) (rest : List Byte) :
    takeRm x.fields.1 x.fields.2 (x.extraBytes ++ rest) = .ok (x, rest) := by
  cases x with
  | base b =>
    have hrm : b.number ≠ 6 := fun h6 => hbp (congrArg _ (Base.number_eq_six_iff.1 h6))
    simp only [takeRm, RmOperand.fields, if_neg hrm, Base.ofNumber_number]
    rfl
  | reg g | direct a | disp8 b d | disp16 b d =>
    simp [takeRm, RmOperand.fields, RmOperand.extraBytes, encodeWord, take8, take16]

/-- The operand read has the class and r/m value it was read under, and `[BP]` without a displacement is never read:
class 0 with r/m = 6 is the direct address (40_operand_decoder.md R109). -/
theorem takeRm_eq_ok_iff {mod : BitVec 2} {rm : BitVec 3} {bytes rest : List Byte} {x : RmOperand} :
    takeRm mod rm bytes = .ok (x, rest) ↔ x ≠ .base .bp ∧ x.fields = (mod, rm) ∧ bytes = x.extraBytes ++ rest := by
  constructor
  · intro h
    unfold takeRm at h
    split at h
    case h_1 =>
      split at h
      · next hrm =>
        split at h
        · next a tail htake =>
          obtain ⟨rfl, rfl⟩ := Prod.mk.inj (Except.ok.inj h)
          exact ⟨nofun, by rw [hrm]; rfl, take16_eq_ok_iff.1 htake⟩
        · cases h
      · next hrm =>
        obtain ⟨rfl, rfl⟩ := Prod.mk.inj (Except.ok.inj h)
        refine ⟨fun hbp => hrm ?_, by simp [RmOperand.fields], rfl⟩
        simpa using Base.number_eq_six_iff.2 (RmOperand.base.inj hbp)
    case h_2 =>
      split at h
      · next d tail htake =>
        obtain ⟨rfl, rfl⟩ := Prod.mk.inj (Except.ok.inj h)
        exact ⟨nofun, by simp [RmOperand.fields], take8_eq_ok_iff.1 htake⟩
      · cases h
    case h_3 =>
      split at h
      · next d tail htake =>
        obtain ⟨rfl, rfl⟩ := Prod.mk.inj (Except.ok.inj h)
        exact ⟨nofun, by simp [RmOperand.fields], take16_eq_ok_iff.1 htake⟩
      · cases h
    case h_4 h0 h1 h2 =>
      obtain ⟨rfl, rfl⟩ := Prod.mk.inj (Except.ok.inj h)
      have hmod : mod = 3 := by revert mod; decide
      exact ⟨nofun, by simp [RmOperand.fields, hmod], rfl⟩
  · rintro ⟨hbp, hfields, rfl⟩
    simpa only [hfields] using takeRm_fields hbp rest

theorem takeModRm_eq_ok_iff {resolved : Config.AddressingSet} {bytes rest : List Byte} {s : SReg} {x : RmOperand} :
    takeModRm resolved bytes = .ok (s, x, rest) ↔
      bytes = encodeModRm s x ++ rest ∧ x.wellFormedWith resolved = true := by
  constructor
  · intro h
    cases bytes with
    | nil => cases h
    | cons m tail =>
      obtain ⟨hcheck, hrm⟩ : checkModRm resolved m = .ok s ∧
          takeRm (modField m) (rmField m) tail = .ok (x, rest) := by
        cases hc : checkModRm resolved m with
        | error e => simp [takeModRm, take8, hc] at h
        | ok s' =>
          cases hr : takeRm (modField m) (rmField m) tail with
          | error e => simp [takeModRm, take8, hc, hr] at h
          | ok p => simpa [takeModRm, take8, hc, hr, Prod.ext_iff] using h
      obtain ⟨hsel, hpair⟩ := checkModRm_eq_ok_iff.1 hcheck
      obtain ⟨hbp, hfields, rfl⟩ := takeRm_eq_ok_iff.1 hrm
      refine ⟨?_, RmOperand.wellFormedWith_iff.2 ⟨hbp, by rwa [hfields]⟩⟩
      rw [encodeModRm, hfields, ← hsel, modRmByte_fields, List.cons_append]
  · rintro ⟨rfl, hwf⟩
    obtain ⟨hbp, hpair⟩ := RmOperand.wellFormedWith_iff.1 hwf
    have hcheck : checkModRm resolved (modRmByte x.fields.1 s.selector x.fields.2) = .ok s :=
      checkModRm_eq_ok_iff.2 (by simpa using hpair)
    simp [takeModRm, take8, encodeModRm, hcheck, takeRm_fields hbp]

end Sys2Proof
end

section
/-! PROOF. The decoder as a whole: the opcode byte selects a class, and the class reads the operands (41_dispatch.md
R130). With the encoder's layers this gives the round trips and the lengths (30_encoding.md R71, R74). -/

namespace Sys2Proof

/-! Mapping over a result -/

theorem exceptMap_eq_ok_iff {ε α β : Type} {f : α → β} {x : Except ε α} {b : β} :
    x.map f = .ok b ↔ ∃ a, x = .ok a ∧ f a = b := by
  cases x <;> simp [Except.map]

theorem exceptMap_eq_error_iff {ε α β : Type} {f : α → β} {x : Except ε α} {e : ε} :
    x.map f = .error e ↔ x = .error e := by
  cases x <;> simp [Except.map]

/-! The opcode's class and its operands -/

/-- What follows the opcode byte, by the opcode's class (41_dispatch.md R130). -/
def OpClass.takeOperands (resolved : Config.AddressingSet) (c : OpClass) (bytes : List Byte) :
    Except DecodeError (Instr × List Byte) :=
  match c with
  | .movR8Imm8 h => (take8 bytes).map fun (b, rest) => (instrMovR8 h b, rest)
  | .movR16Imm16 g => (take16 bytes).map fun (w, rest) => (instrMovR16 g w, rest)
  | .movRm16Sreg => (takeModRm resolved bytes).map fun (s, rm, rest) => (.movRm16Sreg rm s, rest)
  | .movSregRm16 => (takeModRm resolved bytes).map fun (s, rm, rest) => (.movSregRm16 s rm, rest)
  | .intImm8 => (take8 bytes).map fun (v, rest) => (.intImm8 v, rest)

theorem decodeWith_cons_of_none {op : Byte} (h : dispatchOpcode op = none) (resolved : Config.AddressingSet)
    (bytes : List Byte) : decodeWith resolved (op :: bytes) = .error (.unrecognizedOpcode op) := by
  simp [decodeWith, h]

theorem decodeWith_cons_of_some {op : Byte} {c : OpClass} (h : dispatchOpcode op = some c)
    (resolved : Config.AddressingSet) (bytes : List Byte) :
    decodeWith resolved (op :: bytes) = c.takeOperands resolved bytes := by
  unfold decodeWith OpClass.takeOperands
  cases c with
  | movR8Imm8 | intImm8 => cases hb : take8 bytes <;> simp [h, hb, Except.map]
  | movR16Imm16 => cases hw : take16 bytes <;> simp [h, hw, Except.map]
  | movRm16Sreg | movSregRm16 => cases hm : takeModRm resolved bytes <;> simp [h, hm, Except.map]

/-- The decoder on an opcode byte of the class. -/
theorem decodeWith_opcode (resolved : Config.AddressingSet) (c : OpClass) (bytes : List Byte) :
    decodeWith resolved (c.opcode :: bytes) = c.takeOperands resolved bytes :=
  decodeWith_cons_of_some (dispatchOpcode_opcode c) resolved bytes

/-! The two immediate families -/

theorem encode_instrMovR8 (h : Reg8) (b : Byte) : encode (instrMovR8 h b) = [(OpClass.movR8Imm8 h).opcode, b] := by
  cases h <;> rfl

theorem encode_instrMovR16 (g : Gpr) (w : Word) :
    encode (instrMovR16 g w) = (OpClass.movR16Imm16 g).opcode :: encodeWord w := by
  cases g <;> rfl

theorem wellFormedWith_instrMovR8 (resolved : Config.AddressingSet) (h : Reg8) (b : Byte) :
    (instrMovR8 h b).wellFormedWith resolved = true := by
  cases h <;> rfl

theorem wellFormedWith_instrMovR16 (resolved : Config.AddressingSet) (g : Gpr) (w : Word) :
    (instrMovR16 g w).wellFormedWith resolved = true := by
  cases g <;> rfl

/-- The nineteen instructions by the five classes of opcode. -/
theorem Instr.class_cases {motive : Instr → Prop} (movR8Imm8 : ∀ h b, motive (instrMovR8 h b))
    (movR16Imm16 : ∀ g w, motive (instrMovR16 g w)) (movRm16Sreg : ∀ dst src, motive (.movRm16Sreg dst src))
    (movSregRm16 : ∀ dst src, motive (.movSregRm16 dst src)) (intImm8 : ∀ v, motive (.intImm8 v)) (i : Instr) :
    motive i := by
  cases i with
  | movAL b => exact movR8Imm8 .al b
  | movCL b => exact movR8Imm8 .cl b
  | movDL b => exact movR8Imm8 .dl b
  | movBL b => exact movR8Imm8 .bl b
  | movAH b => exact movR8Imm8 .ah b
  | movCH b => exact movR8Imm8 .ch b
  | movDH b => exact movR8Imm8 .dh b
  | movBH b => exact movR8Imm8 .bh b
  | movAX w => exact movR16Imm16 .ax w
  | movCX w => exact movR16Imm16 .cx w
  | movDX w => exact movR16Imm16 .dx w
  | movBX w => exact movR16Imm16 .bx w
  | movSP w => exact movR16Imm16 .sp w
  | movBP w => exact movR16Imm16 .bp w
  | movSI w => exact movR16Imm16 .si w
  | movDI w => exact movR16Imm16 .di w
  | movRm16Sreg dst src => exact movRm16Sreg dst src
  | movSregRm16 dst src => exact movSregRm16 dst src
  | intImm8 v => exact intImm8 v

/-! The round trips -/

/-- The operands accepted after an opcode byte are those of a well-formed instruction with that opcode byte. -/
theorem OpClass.encode_of_takeOperands {resolved : Config.AddressingSet} {c : OpClass} {bytes rest : List Byte}
    {i : Instr} (h : c.takeOperands resolved bytes = .ok (i, rest)) :
    c.opcode :: bytes = encode i ++ rest ∧ i.wellFormedWith resolved = true := by
  cases c with
  | movR8Imm8 r =>
    obtain ⟨⟨b, tail⟩, htake, hi⟩ := exceptMap_eq_ok_iff.1 h
    obtain ⟨rfl, rfl⟩ := Prod.mk.inj hi
    rw [take8_eq_ok_iff.1 htake, encode_instrMovR8]
    exact ⟨rfl, wellFormedWith_instrMovR8 resolved r b⟩
  | movR16Imm16 g =>
    obtain ⟨⟨w, tail⟩, htake, hi⟩ := exceptMap_eq_ok_iff.1 h
    obtain ⟨rfl, rfl⟩ := Prod.mk.inj hi
    rw [take16_eq_ok_iff.1 htake, encode_instrMovR16]
    exact ⟨rfl, wellFormedWith_instrMovR16 resolved g w⟩
  | movRm16Sreg | movSregRm16 =>
    obtain ⟨⟨s, rm, tail⟩, htake, hi⟩ := exceptMap_eq_ok_iff.1 h
    obtain ⟨rfl, rfl⟩ := Prod.mk.inj hi
    obtain ⟨rfl, hwf⟩ := takeModRm_eq_ok_iff.1 htake
    exact ⟨rfl, hwf⟩
  | intImm8 =>
    obtain ⟨⟨v, tail⟩, htake, hi⟩ := exceptMap_eq_ok_iff.1 h
    obtain ⟨rfl, rfl⟩ := Prod.mk.inj hi
    rw [take8_eq_ok_iff.1 htake]
    exact ⟨rfl, rfl⟩

/-- Settles O4, by the five classes: the opcode byte selects the class, whose operand reader reads back the bytes that
the encoder wrote. -/
theorem decodeInvertsEncode : Obligations.DecodeInvertsEncode := by
  intro resolved i rest hwf
  induction i using Instr.class_cases with
  | movR8Imm8 h b =>
    rw [encode_instrMovR8]
    exact decodeWith_opcode resolved (.movR8Imm8 h) (b :: rest)
  | movR16Imm16 g w =>
    rw [encode_instrMovR16]
    have htake : take16 (encodeWord w ++ rest) = .ok (w, rest) := take16_eq_ok_iff.2 rfl
    rw [List.cons_append, decodeWith_opcode, OpClass.takeOperands, htake]
    rfl
  | movRm16Sreg dst src =>
    refine (decodeWith_opcode resolved .movRm16Sreg (encodeModRm src dst ++ rest)).trans ?_
    exact exceptMap_eq_ok_iff.2 ⟨_, takeModRm_eq_ok_iff.2 ⟨rfl, hwf⟩, rfl⟩
  | movSregRm16 dst src =>
    refine (decodeWith_opcode resolved .movSregRm16 (encodeModRm dst src ++ rest)).trans ?_
    exact exceptMap_eq_ok_iff.2 ⟨_, takeModRm_eq_ok_iff.2 ⟨rfl, hwf⟩, rfl⟩
  | intImm8 v => exact decodeWith_opcode resolved .intImm8 (v :: rest)

/-- Settles O5: bytes that are accepted begin with an opcode byte of some class, and its operands are accepted. -/
theorem encodeInvertsDecode : Obligations.EncodeInvertsDecode := by
  intro resolved bytes rest i h
  cases bytes with
  | nil => cases h
  | cons op bytes =>
    cases hop : dispatchOpcode op with
    | none => simp [decodeWith_cons_of_none hop] at h
    | some c =>
      rw [decodeWith_cons_of_some hop] at h
      obtain ⟨henc, hwf⟩ := OpClass.encode_of_takeOperands h
      exact ⟨by rw [← henc, dispatchOpcode_eq_some_iff.1 hop], hwf⟩

/-! Lengths (30_encoding.md R74, R75) -/

theorem encode_length (i : Instr) : (encode i).length = i.length := by
  cases i with
  | movRm16Sreg dst src => exact Laws.EncodedLength.movRm16Sreg dst src
  | movSregRm16 dst src => exact Laws.EncodedLength.movSregRm16 dst src
  | _ => rfl

theorem RmOperand.instrLength_bounds (rm : RmOperand) : 2 ≤ rm.instrLength ∧ rm.instrLength ≤ 4 := by
  cases rm <;> simp [RmOperand.instrLength]

theorem Instr.length_bounds (i : Instr) : 2 ≤ i.length ∧ i.length ≤ 4 := by
  cases i with
  | movRm16Sreg rm _ | movSregRm16 _ rm => exact rm.instrLength_bounds
  | _ => simp [Instr.length]

/-- Either opcode with a ModRM byte has the length of its register/memory operand's form. -/
theorem Instr.length_of_modRm {i : Instr} {rm : RmOperand} {s : SReg}
    (h : i = .movRm16Sreg rm s ∨ i = .movSregRm16 s rm) : i.length = rm.instrLength := by
  rcases h with rfl | rfl <;> rfl

/-- Settles O8: the bytes accepted are the encoding and the rest (O5), and the encoding has the instruction's length. -/
theorem decoderConsumesLength : Obligations.DecoderConsumesLength := by
  intro resolved bytes rest i h
  obtain ⟨rfl, -⟩ := encodeInvertsDecode resolved bytes rest i h
  obtain ⟨hmin, hmax⟩ := i.length_bounds
  exact ⟨by rw [List.length_append, encode_length], hmin, hmax, fun _ _ => Instr.length_of_modRm,
    fun _ _ => Instr.length_of_modRm, fun _ _ => Instr.length_of_modRm, fun _ _ _ => Instr.length_of_modRm,
    fun _ _ _ => Instr.length_of_modRm⟩

end Sys2Proof
end

section
/-! PROOF. How far a step advances PC (30_encoding.md R75): by the length of the instruction, or by the bytes consumed
when the decoder rejects. -/

namespace Sys2Proof

open Machine

/-- `CheckModRM` rejects at the ModRM byte, the second byte consumed (40_operand_decoder.md R115, R116). -/
theorem checkModRm_error_consumed {resolved : Config.AddressingSet} {m : Byte} {e : DecodeError}
    (h : checkModRm resolved m = .error e) : e.consumed = 2 := by
  unfold checkModRm at h
  split at h
  · cases h
    rfl
  · split at h <;> cases h
    rfl

/-- With two bytes after it, the ModRM byte is rejected by `CheckModRM` alone. -/
theorem takeModRm_error_consumed {resolved : Config.AddressingSet} {m a b : Byte} {rest : List Byte} {e : DecodeError}
    (h : takeModRm resolved (m :: a :: b :: rest) = .error e) : e.consumed = 2 := by
  obtain ⟨p, hrm⟩ := takeRm_two_bytes (modField m) (rmField m) a b rest
  cases hcheck : checkModRm resolved m with
  | error e' =>
    obtain rfl : e' = e := by simpa [takeModRm, hcheck] using h
    exact checkModRm_error_consumed hcheck
  | ok s => simp [takeModRm, hcheck, hrm] at h

/-- With three bytes after the opcode byte an immediate is always there, so a rejection names the ModRM byte. -/
theorem OpClass.takeOperands_error_consumed {resolved : Config.AddressingSet} {c : OpClass} {m a b : Byte}
    {rest : List Byte} {e : DecodeError} (h : c.takeOperands resolved (m :: a :: b :: rest) = .error e) :
    e.consumed = 2 := by
  cases c with
  | movR8Imm8 | movR16Imm16 | intImm8 => cases h
  | movRm16Sreg | movSregRm16 => exact takeModRm_error_consumed (exceptMap_eq_error_iff.1 h)

namespace Machine

/-- The core's step in its one form, with the bytes that it consumes: the opcode byte alone where that is unrecognized,
and 2 to 4 otherwise. -/
theorem coreStepWith_consumes (resolved : Config.AddressingSet) (s : State) :
    ∃ w n o, coreStepWith resolved s = .next (s.endStep w n o) ∧ 1 ≤ n ∧ n ≤ 4 ∧
      (n = 1 ↔ dispatchOpcode (s.read8 s.pc) = none) := by
  cases hop : dispatchOpcode (s.read8 s.pc) with
  | none =>
    exact ⟨_, 1, _, coreStepWith_of_rejected (decodeWith_cons_of_none hop resolved _) rfl, by decide, by decide,
      iff_of_true rfl rfl⟩
  | some c =>
    rcases decode_fetchWindow_cases resolved s with ⟨i, rest, hdec⟩ | ⟨e, f, hdec, hf⟩
    · obtain ⟨hmin, hmax⟩ := i.length_bounds
      exact ⟨_, _, _, coreStepWith_of_decoded hdec, by omega, hmax, iff_of_false (by omega) nofun⟩
    · have htake := (decodeWith_cons_of_some hop resolved _).symm.trans hdec
      have hconsumed : e.consumed = 2 := OpClass.takeOperands_error_consumed htake
      exact ⟨_, _, _, coreStepWith_of_rejected hdec hf, by omega, by omega, iff_of_false (by omega) nofun⟩

end Machine

/-- Settles O21: the count and the latch around the core's step leave PC and the bytes at PC as they are. -/
theorem stepAdvancesPcByOneToFour : Obligations.StepAdvancesPcByOneToFour := by
  intro s t hstep
  obtain ⟨w, n, o, hcore, hmin, hmax, hone⟩ := coreStepWith_consumes eaResolved s.countStep
  obtain ⟨u, hu, rfl⟩ := afterStep_eq_next hstep
  obtain rfl : s.countStep.endStep w n o = u := by simpa [hcore] using hu
  exact ⟨n, hmin, hmax, by simp, hone⟩

end Sys2Proof
end

section
/-! PROOF. The operand decoder's own readings: the fetch primitives, and class 3, whose operand is a register that the
ModRM byte names alone (40_operand_decoder.md R100, R102, R104, R110). -/

namespace Sys2Proof

/-- Settles O31: all three primitives are the one byte fetch by definition, which leaves the sign extension: it keeps the
byte's signed value. -/
theorem fetchPrimitivesReadAndAdvance : Obligations.FetchPrimitivesReadAndAdvance := by
  intro s
  have hsigned : s.fetchS8.1.toInt = (s.read8 s.pc).toInt := toInt_sext16 (s.read8 s.pc)
  exact ⟨rfl, ⟨hsigned, rfl⟩, rfl⟩

/-- Class 3 names a general register and leaves every byte after the ModRM byte (40_operand_decoder.md R110). -/
theorem takeRm_class_three (rm : BitVec 3) (bytes : List Byte) :
    takeRm 3 rm bytes = .ok (.reg (Gpr.ofNumber rm), bytes) := rfl

/-- A class 3 ModRM byte with a legal selector is accepted whatever the resolved pairs are (40_operand_decoder.md R110,
R116). -/
theorem takeModRm_class_three (resolved : Config.AddressingSet) {m : Byte} {s : SReg} (hmod : modField m = 3)
    (hsel : SReg.ofSelector (regField m) = some s) (rest : List Byte) :
    takeModRm resolved (m :: rest) = .ok (s, .reg (Gpr.ofNumber (rmField m)), rest) := by
  have hcheck : checkModRm resolved m = .ok s :=
    checkModRm_eq_ok_iff.2 ⟨SReg.ofSelector_eq_some_iff.1 hsel, .inl hmod⟩
  simp only [takeModRm, take8_cons, hcheck, hmod, takeRm_class_three]

/-- Settles O9: both opcodes read the same ModRM operands, and each puts them in its own order. -/
theorem registerClassReadsNoFurtherByte : Obligations.RegisterClassReadsNoFurtherByte := by
  intro resolved m rest s hmod hsel
  have htake := takeModRm_class_three resolved hmod hsel rest
  constructor
  · refine (decodeWith_opcode resolved .movRm16Sreg (m :: rest)).trans ?_
    exact exceptMap_eq_ok_iff.2 ⟨_, htake, rfl⟩
  · refine (decodeWith_opcode resolved .movSregRm16 (m :: rest)).trans ?_
    exact exceptMap_eq_ok_iff.2 ⟨_, htake, rfl⟩

end Sys2Proof
end

section
/-! PROOF. Frames and results of the instructions: the one place that an instruction writes, and everything that it
leaves as it was (41_dispatch.md R136, R138). -/

namespace Sys2Proof

open Machine

namespace Machine

/-! What one write leaves -/

section
variable (s : State) {w : Write} {i r : Reg16} {a b v : Word} {n : Nat} {o : StepOutcome}

/-- No step of the core touches the debug unit (10_state.md R29). -/
theorem State.endStep_debugUnit : (s.endStep w n o).sameHostState s ∧ (s.endStep w n o).icount = s.icount ∧
    (s.endStep w n o).fatal = s.fatal := by
  simp [State.sameHostState]

theorem State.reg_endStep_reg_other (h : r ≠ i) : (s.endStep (.reg i v) n o).reg r = s.reg r :=
  RegFile.get_set_other s.regs v h

theorem State.read8_endStep_reg : (s.endStep (.reg i v) n o).read8 a = s.read8 a := rfl

theorem State.reg_endStep_word : (s.endStep (.word a v) n o).reg r = s.reg r := rfl

theorem State.read8_endStep_word_other (hlow : b ≠ a) (hhigh : b ≠ a + 1) :
    (s.endStep (.word a v) n o).read8 b = s.read8 b :=
  State.read8_write16_other (s.advance n) hlow hhigh v

end

/-! The two immediate families by their parameter -/

theorem exec_instrMovR8 (h : Reg8) (b : Byte) (s : State) : exec (instrMovR8 h b) s = .next (moveImm8 h b s) := by
  cases h <;> rfl

theorem exec_instrMovR16 (g : Gpr) (w : Word) (s : State) : exec (instrMovR16 g w) s = .next (moveImm16 g w s) := by
  cases g <;> rfl

end Machine

/-! The halves (10_state.md R16, R17) -/

/-- A half is named by its register and its place in it. -/
theorem Reg8.eq_of_owner_half {h h' : Reg8} (howner : h.owner = h'.owner) (hhalf : h.half = h'.half) : h = h' := by
  have hnum : ∀ m n : BitVec 3, (ofNumber m).owner = (ofNumber n).owner → (ofNumber m).half = (ofNumber n).half →
      m = n := by decide
  have hn : h.number = h'.number := hnum _ _ (by simpa using howner) (by simpa using hhalf)
  rw [← Reg8.ofNumber_number h, hn, Reg8.ofNumber_number]

theorem Reg8.compose_of_half (h : Reg8) (old : Word) (b : Byte) : h.compose old b =
    match h.half with
    | .low => concatBytes (highByte old) b
    | .high => concatBytes b (lowByte old) := by
  cases h <;> rfl

/-- A byte written to one half leaves every other half, that of the same register included. -/
theorem Machine.RegFile.get8_set_compose_other {h h' : Reg8} (hne : h' ≠ h) (r : RegFile) (b : Byte) :
    (r.set (.gpr h.owner) (h.compose (r.get (.gpr h.owner)) b)).get8 h'.owner h'.half =
      r.get8 h'.owner h'.half := by
  by_cases howner : h'.owner = h.owner
  · have hhalf : h'.half ≠ h.half := fun e => hne (Reg8.eq_of_owner_half howner e)
    rw [howner, Reg8.compose_of_half]
    cases hh : h.half <;> cases hh' : h'.half
    case low.low | high.high => exact absurd (hh'.trans hh.symm) hhalf
    all_goals simp [RegFile.get8]
  · have hget := RegFile.get_set_other r (h.compose (r.get (.gpr h.owner)) b)
      (fun e : Reg16.gpr h'.owner = .gpr h.owner => howner (Reg16.gpr.inj e))
    simp only [RegFile.get8, hget]

/-! The frames -/

/-- Settles O43: the step writes the half's register, and its composed value keeps the other half. -/
theorem movImmediateByteFrame : Obligations.MovImmediateByteFrame := by
  intro h b s t hexec
  rw [exec_instrMovR8, moveImm8_eq] at hexec
  obtain rfl := Host.Outcome.next.inj hexec
  exact ⟨fun _ => s.reg_endStep_reg_other, fun h' hne => RegFile.get8_set_compose_other hne s.regs b,
    fun _ => s.read8_endStep_reg, s.endStep_debugUnit⟩

/-- Settles O44: the step writes the named register. -/
theorem movImmediateWordFrame : Obligations.MovImmediateWordFrame := by
  intro g w s t hexec
  rw [exec_instrMovR16, moveImm16_eq] at hexec
  obtain rfl := Host.Outcome.next.inj hexec
  exact ⟨fun _ => s.reg_endStep_reg_other, fun _ => s.read8_endStep_reg, s.endStep_debugUnit⟩

/-- Settles O45, by the two kinds of form: class 3 writes a register and no memory, a memory form the word at the
effective address and no register. -/
theorem movFromSregFrame : Obligations.MovFromSregFrame := by
  intro rm x s t hexec
  rcases resolveRm_cases rm s with ⟨g, rfl, hrm, -⟩ | ⟨a, haddr, hrm⟩
  all_goals
    rw [exec, execMovRm16Sreg_eq, hrm, Operand.write] at hexec
    obtain rfl := Host.Outcome.next.inj hexec
  · exact ⟨fun r hr => s.reg_endStep_reg_other (hr g rfl), fun _ _ => s.read8_endStep_reg, s.endStep_debugUnit⟩
  · refine ⟨fun _ _ => s.reg_endStep_word, fun b hb => ?_, s.endStep_debugUnit⟩
    obtain ⟨hlow, hhigh⟩ := hb a haddr
    exact s.read8_endStep_word_other hlow hhigh

/-- Settles O46: either form of the source is read, and the step writes the segment register. -/
theorem movToSregFrame : Obligations.MovToSregFrame := by
  intro x rm s t hexec
  rw [exec, execMovSregRm16_eq] at hexec
  obtain rfl := Host.Outcome.next.inj hexec
  exact ⟨fun _ => s.reg_endStep_reg_other, fun _ => s.read8_endStep_reg, s.endStep_debugUnit⟩

/-! The results of the immediate families (42_mov_r8_imm8.md, 43_mov_r16_imm16.md) -/

/-- The encoding and the whole next state of the move into a half, for any of the eight. -/
theorem movR8Imm8_result (h : Reg8) (s : State) (b : Byte) (rest : List Byte) :
    decode ((OpClass.movR8Imm8 h).opcode :: b :: rest) = .ok (instrMovR8 h b, rest) ∧
      exec (instrMovR8 h b) s = .next { s with
        regs := s.regs.set (.gpr h.owner) (h.compose (s.regs.get (.gpr h.owner)) b)
        pc := s.pc + 2
        report := some .ok } :=
  ⟨decodeWith_opcode eaResolved (.movR8Imm8 h) (b :: rest), by rw [exec_instrMovR8, moveImm8_eq]; rfl⟩

/-- The encoding and the whole next state of the move into a general register, for any of the eight. -/
theorem movR16Imm16_result (g : Gpr) (s : State) (lo hi : Byte) (rest : List Byte) :
    decode ((OpClass.movR16Imm16 g).opcode :: lo :: hi :: rest) = .ok (instrMovR16 g (hi ++ lo), rest) ∧
      exec (instrMovR16 g (hi ++ lo)) s = .next { s with
        regs := s.regs.set (.gpr g) (hi ++ lo)
        pc := s.pc + 3
        report := some .ok } :=
  ⟨decodeWith_opcode eaResolved (.movR16Imm16 g) (lo :: hi :: rest), by rw [exec_instrMovR16, moveImm16_eq]; rfl⟩

/-- Settles O36: the result of the family at each of the halves. -/
theorem movImmediateByteResult : Obligations.MovImmediateByteResult := fun s b rest =>
  ⟨movR8Imm8_result .al s b rest, movR8Imm8_result .cl s b rest, movR8Imm8_result .dl s b rest,
    movR8Imm8_result .bl s b rest, movR8Imm8_result .ah s b rest, movR8Imm8_result .ch s b rest,
    movR8Imm8_result .dh s b rest, movR8Imm8_result .bh s b rest⟩

/-- Settles O37: the result of the family at each of the general registers. -/
theorem movImmediateWordResult : Obligations.MovImmediateWordResult := fun s lo hi rest =>
  ⟨movR16Imm16_result .ax s lo hi rest, movR16Imm16_result .cx s lo hi rest, movR16Imm16_result .dx s lo hi rest,
    movR16Imm16_result .bx s lo hi rest, movR16Imm16_result .sp s lo hi rest, movR16Imm16_result .bp s lo hi rest,
    movR16Imm16_result .si s lo hi rest, movR16Imm16_result .di s lo hi rest⟩

end Sys2Proof
end

section
/-! PROOF. Operand descriptors and the contracts of the routines (41_dispatch.md R133 to R135). -/

namespace Sys2Proof

open Machine

namespace Machine

/-- A pair outside the contract of a routine of the 16-bit move raises and writes nothing. -/
theorem moveWord_rejected {r : Routine} {dst src : Operand} (h : ¬ r.accepts dst src = true) (opAddr : Word)
    (s : State) :
    moveWord r opAddr dst src s = s.raise (.contractViolation r dst.shape src.shape opAddr) := by
  simp [moveWord, h]

/-- The contract table, row by row (41_dispatch.md R133). -/
theorem Routine.accepts_cases {r : Routine} {dst src : Operand} (h : r.accepts dst src = true) :
    (r = .movR8Imm8 ∧ ∃ x b, dst = .half x ∧ src = .imm8 b) ∨
      (r = .movR16Imm16 ∧ ∃ g w, dst = .reg (.gpr g) ∧ src = .imm16 w) ∨
      (r = .movRM16Sreg ∧ ∃ x, src = .reg (.sreg x) ∧ ((∃ g, dst = .reg (.gpr g)) ∨ ∃ a, dst = .mem a)) ∨
      (r = .movSregRM16 ∧ ∃ x, dst = .reg (.sreg x) ∧ ((∃ g, src = .reg (.gpr g)) ∨ ∃ a, src = .mem a)) := by
  unfold Routine.accepts at h
  split at h
  case h_7 => cases h
  all_goals simp

/-- The byte routine has its own test of the pair, and fails it in the same way. -/
theorem routineMovR8Imm8_rejected {dst src : Operand} (h : ¬ ∃ x b, dst = .half x ∧ src = .imm8 b) (opAddr : Word)
    (s : State) : routineMovR8Imm8 opAddr dst src s =
      s.raise (.contractViolation .movR8Imm8 dst.shape src.shape opAddr) := by
  unfold routineMovR8Imm8
  split
  · exact absurd ⟨_, _, rfl, rfl⟩ h
  · rfl

end Machine

/-- Settles O34, descriptor by descriptor. -/
theorem operandAccessByDescriptor : Obligations.OperandAccessByDescriptor := fun _ _ _ _ _ _ =>
  ⟨rfl, rfl, rfl, rfl, rfl, rfl, rfl, rfl⟩

/-- Settles O35: a pair that a routine accepts is in its row of the contract table. -/
theorem routinesRejectForeignPairs : Obligations.RoutinesRejectForeignPairs := by
  intro opAddr dst src s
  refine ⟨fun h => routineMovR8Imm8_rejected h opAddr s, fun h => moveWord_rejected (fun hacc => h ?_) opAddr s,
    fun h => moveWord_rejected (fun hacc => h ?_) opAddr s, fun h => moveWord_rejected (fun hacc => h ?_) opAddr s⟩
  all_goals simpa using Routine.accepts_cases hacc

end Sys2Proof
end

section
/-! PROOF. Failed and completed steps of the dispatcher: a step fails only where the decoder rejects, at the opcode
byte or at the ModRM byte, and a rejection writes nothing (41_dispatch.md R131, R138, R139, 60_exceptions.md R222 to
R224). -/

namespace Sys2Proof

open Machine

/-- No instruction has a failure for its outcome (41_dispatch.md R133, 60_exceptions.md R228). -/
theorem Instr.outcome_isFailure (i : Instr) (opAddr : Word) : (i.outcome opAddr).isFailure = false := by
  cases i <;> rfl

/-- A rejection that is a failure of a step comes after the opcode byte or after the ModRM byte. -/
theorem DecodeError.consumed_of_decodeFailure {e : DecodeError} {opAddr : Word} {f : Failure}
    (h : decodeFailure e opAddr = some f) : e.consumed = 1 ∨ e.consumed = 2 := by
  cases e with
  | unrecognizedOpcode op => exact .inl rfl
  | invalidSegmentSelector m | unresolvedAddressing m => exact .inr rfl
  | truncated => cases h

/-- With two bytes after it, the ModRM byte is rejected by `CheckModRM` alone. -/
theorem checkModRm_of_takeModRm_error {resolved : Config.AddressingSet} {m a b : Byte} {rest : List Byte}
    {e : DecodeError} (h : takeModRm resolved (m :: a :: b :: rest) = .error e) :
    checkModRm resolved m = .error e := by
  obtain ⟨p, hrm⟩ := takeRm_two_bytes (modField m) (rmField m) a b rest
  cases hcheck : checkModRm resolved m with
  | error e' => simpa [takeModRm, hcheck] using h
  | ok s => simp [takeModRm, hcheck, hrm] at h

/-- With three bytes after the opcode byte, operands are rejected by `CheckModRM` alone. -/
theorem OpClass.checkModRm_of_takeOperands_error {resolved : Config.AddressingSet} {c : OpClass} {m a b : Byte}
    {rest : List Byte} {e : DecodeError} (h : c.takeOperands resolved (m :: a :: b :: rest) = .error e) :
    checkModRm resolved m = .error e := by
  cases c with
  | movR8Imm8 | movR16Imm16 | intImm8 => cases h
  | movRm16Sreg | movSregRm16 => exact checkModRm_of_takeModRm_error (exceptMap_eq_error_iff.1 h)

/-- The two grounds on which `CheckModRM` rejects (40_operand_decoder.md R115, R116). -/
theorem checkModRm_error_cases {resolved : Config.AddressingSet} {m : Byte} {e : DecodeError}
    (h : checkModRm resolved m = .error e) :
    (SReg.ofSelector (regField m) = none ∧ e = .invalidSegmentSelector m) ∨
      ∃ sreg, SReg.ofSelector (regField m) = some sreg ∧
        (modField m ≠ 3 ∧ ¬ resolved.contains (modField m, rmField m) = true) ∧ e = .unresolvedAddressing m := by
  unfold checkModRm at h
  cases hsel : SReg.ofSelector (regField m) with
  | none =>
    simp only [hsel, Except.error.injEq] at h
    exact .inl ⟨rfl, h.symm⟩
  | some sreg =>
    simp only [hsel] at h
    split at h
    · next hbad => exact .inr ⟨sreg, rfl, hbad, (Except.error.inj h).symm⟩
    · cases h

/-- The default EA_RESOLVED has every memory pair (40_operand_decoder.md R116). -/
theorem eaResolved_contains {mod : BitVec 2} (h : mod ≠ 3) (rm : BitVec 3) :
    eaResolved.contains (mod, rm) = true := by
  revert mod rm
  decide

/-- Under the default EA_RESOLVED the selector is the only ground for `CheckModRM` to reject. -/
theorem checkModRm_eaResolved_error {m : Byte} {e : DecodeError} (h : checkModRm eaResolved m = .error e) :
    e = .invalidSegmentSelector m := by
  rcases checkModRm_error_cases h with ⟨-, he⟩ | ⟨sreg, -, ⟨hmod, hpair⟩, -⟩
  · exact he
  · exact absurd (eaResolved_contains hmod _) hpair

/-- The two rejections of four bytes under the default EA_RESOLVED. -/
theorem decode_four_bytes_error {op m a b : Byte} {rest : List Byte} {e : DecodeError}
    (h : decodeWith eaResolved (op :: m :: a :: b :: rest) = .error e) :
    e = .unrecognizedOpcode op ∨ e = .invalidSegmentSelector m := by
  cases hop : dispatchOpcode op with
  | none =>
    rw [decodeWith_cons_of_none hop] at h
    exact .inl (Except.error.inj h).symm
  | some c =>
    rw [decodeWith_cons_of_some hop] at h
    exact .inr (checkModRm_eaResolved_error (OpClass.checkModRm_of_takeOperands_error h))

namespace Machine

theorem coreStepWith_eq_exec {resolved : Config.AddressingSet} {s : State} {i : Instr} {rest : List Byte}
    (h : decodeWith resolved (fetchWindow s) = .ok (i, rest)) : coreStepWith resolved s = exec i s := by
  rw [coreStepWith, h]

/-- A step that ends with a failure is one whose bytes the decoder rejects with that failure. -/
theorem rejected_of_coreStepWith_failed {resolved : Config.AddressingSet} {s t : State} {f : Failure}
    (hcore : coreStepWith resolved s = .next t) (hreport : t.report = some (.failed f)) :
    ∃ e, decodeWith resolved (fetchWindow s) = .error e ∧ decodeFailure e s.pc = some f ∧
      t = s.endStep .nothing e.consumed (.failed f) := by
  rcases decode_fetchWindow_cases resolved s with ⟨i, rest, hdec⟩ | ⟨e, f', hdec, hf⟩
  · obtain rfl := Host.Outcome.next.inj ((coreStepWith_of_decoded hdec).symm.trans hcore)
    have hout : i.outcome s.pc = .failed f := by simpa using hreport
    have hok := i.outcome_isFailure s.pc
    rw [hout] at hok
    cases hok
  · obtain rfl := Host.Outcome.next.inj ((coreStepWith_of_rejected hdec hf).symm.trans hcore)
    obtain rfl : f' = f := by simpa using hreport
    exact ⟨e, hdec, hf, rfl⟩

end Machine

/-- Settles O16: the decoder rejects at the opcode byte. -/
theorem unrecognizedOpcodeAbandonsStep : Obligations.UnrecognizedOpcodeAbandonsStep := fun resolved _ hop =>
  coreStepWith_of_rejected (decodeWith_cons_of_none hop resolved _) rfl

/-- Settles O19: the failure is a rejection, which passes the bytes consumed and writes nothing. -/
theorem failedStepChangesOnlyPc : Obligations.FailedStepChangesOnlyPc := by
  intro resolved s t f hcore hreport
  obtain ⟨e, -, hf, rfl⟩ := rejected_of_coreStepWith_failed hcore hreport
  refine ⟨?_, rfl⟩
  rcases DecodeError.consumed_of_decodeFailure hf with hone | htwo
  · exact .inl (by simp [hone])
  · exact .inr (by simp [htwo])

/-- Settles O20: every instruction passes its own length and ends with an outcome that is no failure. -/
theorem decodedStepCompletesPastInstruction : Obligations.DecodedStepCompletesPastInstruction := by
  intro resolved s i rest hdec
  exact ⟨_, coreStepWith_of_decoded hdec, State.endStep_pc .., i.outcome_isFailure s.pc⟩

/-- Settles O22: counting the step leaves the bytes at PC, and only these two rejections occur when every pair is
resolved. -/
theorem onlyTwoFailuresReachable : Obligations.OnlyTwoFailuresReachable := by
  intro s t f hstep hreport
  obtain ⟨u, hcore, rfl⟩ := afterStep_eq_next hstep
  obtain ⟨e, hdec, hf, -⟩ := rejected_of_coreStepWith_failed hcore hreport
  rcases decode_four_bytes_error hdec with rfl | rfl
  · exact .inl (Option.some.inj hf).symm
  · exact .inr (Option.some.inj hf).symm

/-- Settles O13: counting the step leaves the bytes at PC, and the latch follows the instruction. -/
theorem stepRunsTheDecodedInstruction : Obligations.StepRunsTheDecodedInstruction := by
  intro s i rest hdec
  have hstep : step s = afterStep (exec i s.countStep) :=
    congrArg afterStep (coreStepWith_eq_exec (s := s.countStep) hdec)
  exact ⟨hstep, fun t ht => hstep.trans (congrArg afterStep ht)⟩

end Sys2Proof
end

section
/-! PROOF. Decode-then-apply does what the spec's pseudocode does (41_dispatch.md R130): each fetch reads the byte of
the window that the decoder takes there, and PC passes the same bytes (40_operand_decoder.md R100 to R106, R111,
R116). -/

namespace Sys2Proof

open Machine

namespace Machine

/-! The bytes of a step's instruction, by their place in it -/

/-- The byte `n` addresses past PC, modulo 65536 (10_state.md R20). -/
def State.codeByte (s : State) (n : Nat) : Byte := s.read8 (s.pc + BitVec.ofNat 16 n)

theorem fetchWindow_eq_codeBytes (s : State) :
    fetchWindow s = [s.codeByte 0, s.codeByte 1, s.codeByte 2, s.codeByte 3] := by
  simp [fetchWindow, State.codeByte]

/-- Fetching `m` bytes and then `n` is fetching `m + n`. -/
theorem State.advance_advance (s : State) (m n : Nat) : (s.advance m).advance n = s.advance (m + n) := by
  simp [State.advance, State.withPc, BitVec.ofNat_add, BitVec.add_assoc]

theorem State.fetch8_eq (s : State) : s.fetch8 = (s.codeByte 0, s.advance 1) := by
  simp [State.fetch8, State.codeByte]

theorem State.fetch8_advance (s : State) (n : Nat) :
    (s.advance n).fetch8 = (s.codeByte n, s.advance (n + 1)) :=
  Prod.ext rfl (s.advance_advance n 1)

theorem State.fetch16_advance (s : State) (n : Nat) :
    (s.advance n).fetch16 = (concatBytes (s.codeByte (n + 1)) (s.codeByte n), s.advance (n + 2)) := by
  have hnext : s.pc + BitVec.ofNat 16 n + 1 = s.pc + BitVec.ofNat 16 (n + 1) := by
    simp [BitVec.ofNat_add, BitVec.add_assoc]
  simp only [State.fetch16, State.codeByte, State.advance_advance, State.advance_pc, hnext]
  rfl

/-! The operands of the two opcodes with a ModRM byte -/

/-- A base/index sum is the same wherever PC is (40_operand_decoder.md R108). -/
theorem Base.address_advance (b : Base) (s : State) (n : Nat) : Base.address b (s.advance n) = Base.address b s :=
  Base.address_congr b fun _ => rfl

/-- An operand whose bytes follow the ModRM byte is the one that the pseudocode resolves from its fields, and PC passes
as many bytes (40_operand_decoder.md R106). -/
theorem engineResolveRm_fields {s : State} {x : RmOperand} {rest : List Byte} (hbp : x ≠ .base .bp)
    (hbytes : [s.codeByte 2, s.codeByte 3] = x.extraBytes ++ rest) :
    engineResolveRm x.fields.1 x.fields.2 (s.advance 2) = (resolveRm x s, s.advance x.instrLength) := by
  cases x with
  | reg g => simp [engineResolveRm, resolveRm, RmOperand.fields, RmOperand.instrLength]
  | base b =>
    have hrm : b.number ≠ 6 := fun h6 => hbp (congrArg _ (Base.number_eq_six_iff.1 h6))
    simp only [engineResolveRm, RmOperand.fields, if_neg hrm, Base.ofNumber_number, Base.address_advance]
    rfl
  | direct a =>
    obtain ⟨hlow, hhigh, -⟩ : s.codeByte 2 = lowByte a ∧ s.codeByte 3 = highByte a ∧ [] = rest := by
      simpa [RmOperand.extraBytes, encodeWord] using hbytes
    simp [engineResolveRm, resolveRm, RmOperand.fields, RmOperand.instrLength, State.fetch16_advance, hlow, hhigh]
  | disp8 b d =>
    obtain ⟨hd, -⟩ : s.codeByte 2 = d ∧ [s.codeByte 3] = rest := by
      simpa [RmOperand.extraBytes] using hbytes
    simp [engineResolveRm, resolveRm, RmOperand.fields, RmOperand.instrLength, State.fetchS8, State.fetch8_advance,
      Base.address_advance, hd]
  | disp16 b d =>
    obtain ⟨hlow, hhigh, -⟩ : s.codeByte 2 = lowByte d ∧ s.codeByte 3 = highByte d ∧ [] = rest := by
      simpa [RmOperand.extraBytes, encodeWord] using hbytes
    simp [engineResolveRm, resolveRm, RmOperand.fields, RmOperand.instrLength, State.fetchS16, State.fetch16_advance,
      Base.address_advance, hlow, hhigh]

/-- Where the decoder takes a ModRM byte and operand, the pseudocode passes its own check of the same byte and resolves
the same operand. -/
theorem engineModRm_of_takeModRm_ok {resolved : Config.AddressingSet} {s : State} {sreg : SReg} {x : RmOperand}
    {rest : List Byte}
    (h : takeModRm resolved [s.codeByte 1, s.codeByte 2, s.codeByte 3] = .ok (sreg, x, rest)) (opAddr : Word) :
    engineModRm resolved opAddr (s.advance 1) = .ok (sreg, resolveRm x s, s.advance x.instrLength) := by
  obtain ⟨hbytes, hwf⟩ := takeModRm_eq_ok_iff.1 h
  obtain ⟨hmodrm, hextra⟩ := List.cons.inj hbytes
  obtain ⟨hbp, hpair⟩ := RmOperand.wellFormedWith_iff.1 hwf
  have hgood : ¬ (x.fields.1 ≠ 3 ∧ ¬ resolved.contains x.fields = true) := by tauto
  simp only [engineModRm, State.fetchModRm, State.fetch8_advance, hmodrm, modField_modRmByte, regField_modRmByte,
    rmField_modRmByte, SReg.ofSelector_selector, Prod.mk.eta, if_neg hgood, engineResolveRm_fields hbp hextra]

/-- Where the decoder rejects the ModRM byte, the pseudocode raises on the same ground: the selector is looked at first
in both (40_operand_decoder.md R115, R116). -/
theorem engineModRm_of_checkModRm_error {resolved : Config.AddressingSet} {s : State} {e : DecodeError} {opAddr : Word}
    {f : Failure} (h : checkModRm resolved (s.codeByte 1) = .error e) (hf : decodeFailure e opAddr = some f) :
    engineModRm resolved opAddr (s.advance 1) = .error (f, s.advance 2) := by
  rcases checkModRm_error_cases h with ⟨hsel, rfl⟩ | ⟨sreg, hsel, hbad, rfl⟩
  · cases hf
    simp only [engineModRm, State.fetchModRm, State.fetch8_advance, modRmByte_fields, hsel]
  · cases hf
    simp only [engineModRm, State.fetchModRm, State.fetch8_advance, modRmByte_fields, hsel, if_pos hbad]

/-! The step by the class of its opcode byte -/

section
variable {resolved : Config.AddressingSet} {s : State} {c : OpClass} (hop : dispatchOpcode (s.codeByte 0) = some c)
include hop

theorem decodeWith_fetchWindow_of_class : decodeWith resolved (fetchWindow s) =
    c.takeOperands resolved [s.codeByte 1, s.codeByte 2, s.codeByte 3] := by
  rw [fetchWindow_eq_codeBytes, decodeWith_cons_of_some hop]

/-- Where the class's operands are read, the pseudocode fetches the same ones and runs the instruction's routine. -/
theorem engineStep_of_takeOperands_ok {i : Instr} {rest : List Byte}
    (h : c.takeOperands resolved [s.codeByte 1, s.codeByte 2, s.codeByte 3] = .ok (i, rest)) :
    exec i s = .next (engineStep resolved s) := by
  cases c with
  | movR8Imm8 r =>
    cases h
    simp only [exec_instrMovR8, moveImm8, engineStep, s.fetch8_eq, hop, State.fetch8_advance]
  | movR16Imm16 g =>
    cases h
    simp only [exec_instrMovR16, moveImm16, engineStep, s.fetch8_eq, hop, State.fetch16_advance]
  | movRm16Sreg =>
    obtain ⟨⟨sreg, x, tail⟩, htake, hi⟩ := exceptMap_eq_ok_iff.1 h
    cases hi
    simp only [exec, execMovRm16Sreg, engineStep, s.fetch8_eq, hop, engineModRm_of_takeModRm_ok htake]
  | movSregRm16 =>
    obtain ⟨⟨sreg, x, tail⟩, htake, hi⟩ := exceptMap_eq_ok_iff.1 h
    cases hi
    simp only [exec, execMovSregRm16, engineStep, s.fetch8_eq, hop, engineModRm_of_takeModRm_ok htake]
  | intImm8 =>
    cases h
    simp only [exec, execIntImm8, engineStep, s.fetch8_eq, hop, State.fetch8_advance]

/-- Where the class's operands are rejected, the pseudocode raises, with PC past the ModRM byte. -/
theorem engineStep_of_takeOperands_error {e : DecodeError} {f : Failure}
    (h : c.takeOperands resolved [s.codeByte 1, s.codeByte 2, s.codeByte 3] = .error e)
    (hf : decodeFailure e s.pc = some f) : engineStep resolved s = (s.advance e.consumed).raise f := by
  have hcheck := OpClass.checkModRm_of_takeOperands_error h
  rw [checkModRm_error_consumed hcheck]
  cases c with
  | movR8Imm8 | movR16Imm16 | intImm8 => cases h
  | movRm16Sreg | movSregRm16 =>
    simp only [engineStep, s.fetch8_eq, hop, engineModRm_of_checkModRm_error hcheck hf]

end

/-- The pseudocode on an opcode byte of no class (41_dispatch.md R131). -/
theorem engineStep_of_unrecognized (resolved : Config.AddressingSet) {s : State}
    (hop : dispatchOpcode (s.codeByte 0) = none) : engineStep resolved s =
      (s.advance 1).raise (.decodeFault (.unrecognizedOpcode (s.codeByte 0) s.pc)) := by
  simp only [engineStep, s.fetch8_eq, hop]

end Machine

/-- Settles O15, by the class of the opcode byte; within a class the operands are read or rejected by both alike. -/
theorem stepRefinesPseudocode : Obligations.StepRefinesPseudocode := by
  intro resolved s
  cases hop : dispatchOpcode (s.codeByte 0) with
  | none =>
    have hdec := decodeWith_cons_of_none hop resolved [s.codeByte 1, s.codeByte 2, s.codeByte 3]
    rw [← fetchWindow_eq_codeBytes] at hdec
    rw [coreStepWith_of_rejected hdec rfl, engineStep_of_unrecognized resolved hop]
    rfl
  | some c =>
    have hclass := decodeWith_fetchWindow_of_class (resolved := resolved) hop
    rcases decode_fetchWindow_cases resolved s with ⟨i, rest, hdec⟩ | ⟨e, f, hdec, hf⟩
    · rw [coreStepWith_eq_exec hdec]
      exact engineStep_of_takeOperands_ok hop (hclass.symm.trans hdec)
    · rw [coreStepWith_of_rejected hdec hf, engineStep_of_takeOperands_error hop (hclass.symm.trans hdec) hf]
      rfl

end Sys2Proof
end

section
/-! PROOF. The results of the moves between a segment register and a register/memory word (44_mov_sreg.md R190 to R192):
the whole next state, for class 3 and for the memory forms. -/

namespace Sys2Proof

open Machine

namespace Machine

/-! The state after a step, field by field of what it writes -/

section
variable (s : State) (n : Nat) (o : StepOutcome)

theorem State.endStep_reg (i : Reg16) (v : Word) : s.endStep (.reg i v) n o = { s with
    regs := s.regs.set i v
    pc := s.pc + BitVec.ofNat 16 n
    report := some o } := rfl

/-- A stored word is two byte writes, the low byte at the lower address (20_memory.md R48). -/
theorem State.endStep_word (a v : Word) : s.endStep (.word a v) n o = { s with
    mem := Memory.write (Memory.write s.mem a.toNat (lowByte v)) (a + 1).toNat (highByte v)
    pc := s.pc + BitVec.ofNat 16 n
    report := some o } := rfl

end

/-- An operand with an effective address is memory at that address (40_operand_decoder.md R106). -/
theorem resolveRm_of_effectiveAddress {rm : RmOperand} {s : State} {a : Word} (h : effectiveAddress rm s = some a) :
    resolveRm rm s = .mem a := by
  rcases resolveRm_cases rm s with ⟨g, -, -, hnone⟩ | ⟨a', hsome, hrm⟩
  · simp [hnone] at h
  · obtain rfl : a' = a := by simpa [hsome] using h
    exact hrm

end Machine

/-! The word that a register/memory operand holds, by the kind of form (41_dispatch.md R134) -/

theorem RmOperand.value_reg (g : Gpr) (s : State) : (RmOperand.reg g).value s = s.regs.get (.gpr g) := rfl

theorem RmOperand.value_of_effectiveAddress {rm : RmOperand} {s : State} {a : Word}
    (h : effectiveAddress rm s = some a) : rm.value s = s.read16 a := by
  rw [RmOperand.value, resolveRm_of_effectiveAddress h, State.readOperand16, Option.getD_some]

/-- Settles O38: the write of class 3 is of the general register. -/
theorem movSregToRegisterResult : Obligations.MovSregToRegisterResult := by
  intro s g x
  rw [exec, execMovRm16Sreg_eq, resolveRm, Operand.write, State.endStep_reg]
  rfl

/-- Settles O39: the write of a memory form is of the word at its effective address. -/
theorem movSregToMemoryResult : Obligations.MovSregToMemoryResult := by
  intro s rm x a haddr
  rw [exec, execMovRm16Sreg_eq, write_resolveRm_of_effectiveAddress haddr, State.endStep_word]
  rfl

/-- Settles O40: the source of class 3 holds the general register's value. -/
theorem movRegisterToSregResult : Obligations.MovRegisterToSregResult := by
  intro s x g
  rw [exec, execMovSregRm16_eq, RmOperand.value_reg, State.endStep_reg]
  rfl

/-- Settles O41: the source of a memory form holds the word at its effective address. -/
theorem movMemoryToSregResult : Obligations.MovMemoryToSregResult := by
  intro s x rm a haddr
  rw [exec, execMovSregRm16_eq, RmOperand.value_of_effectiveAddress haddr, State.endStep_reg, State.read16]

end Sys2Proof
end

section
/-! PROOF. The frame of the software interrupt (45_int.md R210, R211): a step that writes nothing. -/

namespace Sys2Proof

open Machine

namespace Machine

/-! What a step that makes no write leaves -/

section
variable (s : State) {r : Reg16} {a : Word} {n : Nat} {o : StepOutcome}

theorem State.reg_endStep_nothing : (s.endStep .nothing n o).reg r = s.reg r := rfl

theorem State.read8_endStep_nothing : (s.endStep .nothing n o).read8 a = s.read8 a := rfl

end

end Machine

/-- Settles O47: INT makes no write; passing its bytes and its notice leave registers, memory and debug unit. -/
theorem intFrame : Obligations.IntFrame := by
  intro v s t hexec
  rw [exec_eq, Instr.write] at hexec
  obtain rfl := Host.Outcome.next.inj hexec
  exact ⟨fun _ => s.reg_endStep_nothing, fun _ => s.read8_endStep_nothing, s.endStep_debugUnit⟩

end Sys2Proof
end

section
/-! PROOF. The controller around a step (60_exceptions.md R244 to R248): every step answers, so `step_n` performs all of
its steps, and a run goes on until a step stops it. -/

namespace Sys2Proof

open Machine

namespace Machine

/-- The controller's step answers from every state: the core's step in its one form, between the count and the latch. -/
theorem stepWith_endStep (resolved : Config.AddressingSet) (s : State) :
    ∃ w n o, stepWith resolved s = .next (s.countStep.endStep w n o).latchFailure := by
  obtain ⟨w, n, o, hcore⟩ := coreStepWith_endStep resolved s.countStep
  exact ⟨w, n, o, by rw [stepWith, hcore, afterStep_next]⟩

end Machine

/-- Settles O14: the one form of a step's end holds the outcome, and the latch leaves it there. -/
theorem everyStepAnswersNext : Obligations.EveryStepAnswersNext := by
  intro resolved s
  obtain ⟨w, n, o, hstep⟩ := stepWith_endStep resolved s
  exact ⟨_, o, hstep, by simp⟩

namespace Machine

/-- The test of a run, by the outcome of the step before it (60_exceptions.md R246). -/
theorem State.stopsRun_of_report {t : State} {o : StepOutcome} (h : t.report = some o) :
    t.stopsRun = (t.breakpoints.contains t.pc || o.isFailure) := by
  rw [State.stopsRun, State.failed, h]

section
variable {s t : State} {o : StepOutcome} (hstep : step s = .next t) (hreport : t.report = some o)
include hstep hreport

/-- The triple that `do_step()` returns (60_exceptions.md R244). -/
theorem doStep_of_step : doStep s = .next ({ opAddr := s.pc, op := s.read8 s.pc, outcome := o }, t) := by
  simp [doStep, hstep, hreport]

/-- `step_n` puts the record of its first step before those of the others, whatever the outcome (60_exceptions.md
R245). -/
theorem stepN_succ_of_step {n : Nat} {records : List TraceRecord} {u : State} (hrest : stepN n t = .next (records, u)) :
    stepN (n + 1) s = .next ({ opAddr := s.pc, op := s.read8 s.pc, outcome := o } :: records, u) := by
  simp [stepN, doStep_of_step hstep hreport, hrest]

/-- A run ends with its report after a step that stops it (60_exceptions.md R246, R247). -/
theorem runLoop_succ_of_stopsRun (hstop : t.stopsRun = true) (fuel steps : Nat) (notices : List Notice) :
    runLoop (fuel + 1) steps notices s = .next (some
      { steps := steps + 1, hit := t.breakpoints.contains t.pc, failure := o.failure?,
        notices := notices ++ o.notices }, t) := by
  simp only [runLoop, doStep_of_step hstep hreport, ← State.stopsRun_of_report hreport, if_pos hstop]

/-- A run goes on after a step that does not stop it (60_exceptions.md R246). -/
theorem runLoop_succ_of_not_stopsRun (hstop : t.stopsRun = false) (fuel steps : Nat) (notices : List Notice) :
    runLoop (fuel + 1) steps notices s = runLoop fuel (steps + 1) (notices ++ o.notices) t := by
  have hstop' : ¬ t.stopsRun = true := ne_true_of_eq_false hstop
  simp only [runLoop, doStep_of_step hstep hreport, ← State.stopsRun_of_report hreport, if_neg hstop']

end

/-- None of the first `n` steps from here stops a run. -/
def State.GoesOnFor (s : State) (n : Nat) : Prop :=
  ∀ (k : Nat) (u : State), 1 ≤ k → k ≤ n → run k s = .next u → u.stopsRun = false

theorem State.goesOnFor_zero (s : State) : s.GoesOnFor 0 := by
  intro k u hpos hle
  omega

/-- The first of the steps does not stop a run, and from there neither do the others. -/
theorem State.goesOnFor_succ_iff {s t : State} (hstep : step s = .next t) (n : Nat) :
    s.GoesOnFor (n + 1) ↔ t.stopsRun = false ∧ t.GoesOnFor n := by
  constructor
  · intro h
    refine ⟨h 1 t le_rfl (by omega) (run_succ hstep 0), fun k u _ hle hrun => ?_⟩
    exact h (k + 1) u (by omega) (by omega) ((run_succ hstep k).trans hrun)
  · rintro ⟨hfirst, hrest⟩ k u hpos hle hrun
    obtain ⟨j, rfl⟩ : ∃ j, k = j + 1 := ⟨k - 1, by omega⟩
    rw [run_succ hstep] at hrun
    cases j with
    | zero => exact Host.Outcome.next.inj hrun ▸ hfirst
    | succ j => exact hrest (j + 1) u (by omega) (by omega) hrun

/-- The loop has not ended within its bound exactly when no step stopped it, whatever it has counted and collected
before. -/
theorem runLoop_unfinished_iff (fuel steps : Nat) (notices : List Notice) (s : State) :
    (∃ t, runLoop fuel steps notices s = .next (none, t)) ↔ s.GoesOnFor fuel := by
  induction fuel generalizing steps notices s with
  | zero => exact iff_of_true ⟨s, rfl⟩ s.goesOnFor_zero
  | succ fuel ih =>
    obtain ⟨t, o, hstep, hreport⟩ := everyStepAnswersNext eaResolved s
    rw [State.goesOnFor_succ_iff hstep]
    cases hstop : t.stopsRun with
    | true => simp [runLoop_succ_of_stopsRun hstep hreport hstop]
    | false => simp [runLoop_succ_of_not_stopsRun hstep hreport hstop, ih]

/-- A property that every step keeps, and under which no step stops a run, lets the run go on for ever. -/
theorem State.goesOnFor_of_invariant {P : State → Prop}
    (hkeeps : ∀ s, P s → ∃ t, step s = .next t ∧ P t ∧ t.stopsRun = false) {s : State} (h : P s) (n : Nat) :
    s.GoesOnFor n := by
  induction n generalizing s with
  | zero => exact s.goesOnFor_zero
  | succ n ih =>
    obtain ⟨t, hstep, ht, hstop⟩ := hkeeps s h
    exact (State.goesOnFor_succ_iff hstep n).2 ⟨hstop, ih ht⟩

end Machine

/-- Settles O54, by induction on the number of steps: each of them answers (O14), and neither its outcome nor PC is
looked at. -/
theorem stepNPerformsExactlyN : Obligations.StepNPerformsExactlyN := by
  refine ⟨fun _ => rfl, fun n => ?_⟩
  induction n with
  | zero => exact fun s => ⟨[], s, rfl, rfl, run_zero s⟩
  | succ n ih =>
    intro s
    obtain ⟨t, o, hstep, hreport⟩ := everyStepAnswersNext eaResolved s
    obtain ⟨records, u, hrest, hlength, hrun⟩ := ih t
    exact ⟨_, u, stepN_succ_of_step hstep hreport hrest, congrArg (· + 1) hlength, (run_succ hstep n).trans hrun⟩

/-- Settles O57: the loop, from no steps and no notices on. -/
theorem runGoesOnUntilAStop : Obligations.RunGoesOnUntilAStop := fun fuel s => runLoop_unfinished_iff fuel 0 [] s

end Sys2Proof
end

section
/-! PROOF. The endless run (60_exceptions.md R248): each step moves an immediate byte into AL and passes two bytes, so
PC stays even and memory stays as it is. -/

namespace Sys2Proof

open Machine

namespace Machine

/-- 0xB0 at every even address, PC even and no breakpoint. -/
structure State.EndlessMoves (s : State) : Prop where
  opcodes : ∀ a : Word, a.toNat % 2 = 0 → s.read8 a = 0xB0
  pcEven : s.pc.toNat % 2 = 0
  noBreakpoint : s.breakpoints = []

/-- A step at an opcode byte of the moves into a half writes that half, passes two bytes and completes
(42_mov_r8_imm8.md). -/
theorem step_of_movR8Imm8_opcode {s : State} {h : Reg8} (hop : s.read8 s.pc = (OpClass.movR8Imm8 h).opcode) :
    step s = .next { s with
      regs := s.regs.set (.gpr h.owner) (h.compose (s.regs.get (.gpr h.owner)) (s.read8 (s.pc + 1)))
      pc := s.pc + 2
      icount := s.icount + 1
      report := some .ok } := by
  obtain ⟨hdec, hexec⟩ :=
    movR8Imm8_result h s.countStep (s.read8 (s.pc + 1)) [s.read8 (s.pc + 2), s.read8 (s.pc + 3)]
  rw [← hop] at hdec
  obtain ⟨-, hstep⟩ := stepRunsTheDecodedInstruction s _ _ hdec
  rw [hstep _ hexec]
  simp [State.failed, StepOutcome.isFailure]

/-- Passing two bytes keeps PC even, from 0xFFFE to 0x0000 too (10_state.md R20). -/
theorem add_two_even {a : Word} (h : a.toNat % 2 = 0) : (a + 2).toNat % 2 = 0 := by
  bv_omega

theorem State.EndlessMoves.step_keeps {s : State} (h : s.EndlessMoves) :
    ∃ t, step s = .next t ∧ t.EndlessMoves ∧ t.stopsRun = false := by
  obtain ⟨hopcodes, hpc, hbp⟩ := h
  refine ⟨_, step_of_movR8Imm8_opcode (h := .al) (hopcodes s.pc hpc), ⟨hopcodes, add_two_even hpc, hbp⟩, ?_⟩
  rw [State.stopsRun_of_report rfl, hbp]
  rfl

end Machine

/-- Settles O58: every step keeps the property and stops no run, so the run goes on (O57). -/
theorem endlessRunExists : Obligations.EndlessRunExists := by
  intro s hopcodes hpc hbp fuel
  refine (runGoesOnUntilAStop fuel s).2 ?_
  exact State.goesOnFor_of_invariant (fun _ => State.EndlessMoves.step_keeps) ⟨hopcodes, hpc, hbp⟩ fuel

end Sys2Proof
end

section
/-! PROOF. The debug unit's own operations: the breakpoint set (60_exceptions.md R241 to R243) and the read-only views
(60_exceptions.md R250, 10_state.md R27). -/

namespace Sys2Proof

open Machine

namespace Machine

/-- In a list in rising order a member is found before any greater address, so adding it changes nothing. -/
theorem Breakpoints.insert_of_mem {l : List Word} (h : Breakpoints.wf l) {a : Word} (ha : a ∈ l) :
    Breakpoints.insert l a = l := by
  induction l with
  | nil => cases ha
  | cons c l ih =>
    obtain ⟨hlt, hl⟩ := List.pairwise_cons.1 h
    unfold Breakpoints.insert
    by_cases hac : a = c
    · rw [if_pos hac]
    · have hmem : a ∈ l := (List.mem_cons.1 ha).resolve_left hac
      rw [if_neg hac, if_neg (BitVec.lt_asymm (hlt a hmem)), ih hl hmem]

theorem State.addBreakpoint_of_mem {s : State} {a : Word} (h : Breakpoints.wf s.breakpoints)
    (ha : a ∈ s.breakpoints) : s.addBreakpoint a = s := by
  rw [State.addBreakpoint, Breakpoints.insert_of_mem h ha]

theorem State.removeBreakpoint_of_not_mem {s : State} {a : Word} (ha : a ∉ s.breakpoints) :
    s.removeBreakpoint a = s := by
  have hall : ∀ b ∈ s.breakpoints, decide (b ≠ a) = true :=
    fun b hb => decide_eq_true (ne_of_mem_of_not_mem hb ha)
  rw [State.removeBreakpoint, List.filter_eq_self.2 hall]

theorem State.mem_removeBreakpoint (s : State) (a b : Word) :
    b ∈ (s.removeBreakpoint a).breakpoints ↔ b ∈ s.breakpoints ∧ b ≠ a := by
  rw [State.removeBreakpoint_breakpoints, List.mem_filter, decide_eq_true_iff]

end Machine

/-- Settles O51: membership by the laws of the list, and no other field is touched. -/
theorem breakpointSetOperations : Obligations.BreakpointSetOperations := fun s a b =>
  ⟨Breakpoints.mem_insert s.breakpoints a b, s.mem_removeBreakpoint a b, rfl, State.addBreakpoint_of_mem,
    State.removeBreakpoint_of_not_mem, rfl, rfl, rfl, rfl⟩

/-- Settles O59: the three views are the state's own fields, and each hands the state back. -/
theorem snapshotShowsAllRegisters : Obligations.SnapshotShowsAllRegisters := fun _ => ⟨rfl, rfl, rfl⟩

end Sys2Proof
end

section
/-! PROOF. Reset and the host operations (70_reset_and_hazards.md R270 to R284): the reset values, the first step out of
reset, the image load, and what a host operation can do to the state, said once for the invariant and for the frame. -/

namespace Sys2Proof

open Machine

namespace Machine

/-- RESET_REG in every register (10_state.md R10, by D13). -/
@[simp] theorem RegFile.get_reset (i : Reg16) : RegFile.reset.get i = Config.resetReg := by
  rcases i with g | x
  · cases g <;> rfl
  · cases x <;> rfl

/-- Memory that holds no cell reads as the reset contents at every address (10_state.md R21). -/
@[simp] theorem State.read8_reset (a : Word) : State.reset.read8 a = Memory.unlisted := rfl

end Machine

/-- Settles O1: every register is at RESET_REG and no memory cell is listed; the other fields are written out. -/
theorem resetLeavesEverythingZero : Obligations.ResetLeavesEverythingZero :=
  ⟨RegFile.get_reset, rfl, State.read8_reset, rfl, rfl, rfl, rfl, rfl⟩

/-- Settles O3: the byte at PC is the zero byte of empty memory, which is no opcode, so the core's step is abandoned
after it (O16). -/
theorem firstStepFromEmptyMemory : Obligations.FirstStepFromEmptyMemory := by
  have hop : dispatchOpcode (State.reset.countStep.read8 State.reset.countStep.pc) = none := rfl
  exact congrArg afterStep (unrecognizedOpcodeAbandonsStep eaResolved State.reset.countStep hop)

/-- Settles O50: both operations are the named updates. -/
theorem loadImageSetsPcAndBase : Obligations.LoadImageSetsPcAndBase := fun _ _ _ => ⟨rfl, rfl⟩

namespace Machine

/-- What every step keeps, a run keeps. -/
theorem run_keeps {P : State → Prop} (hkeeps : ∀ s t, P s → step s = .next t → P t) {k : Nat} {s t : State}
    (h : P s) (hrun : run k s = .next t) : P t := by
  induction k generalizing s with
  | zero => exact Host.Outcome.next.inj hrun ▸ h
  | succ k ih =>
    obtain ⟨u, _, hstep, -⟩ := everyStepAnswersNext eaResolved s
    exact ih (hkeeps s u h hstep) ((run_succ hstep k).symm.trans hrun)

/-- The loop of a run answers, stopped or not, and ends where some number of steps ends (60_exceptions.md R246). -/
theorem runLoop_ends_run (fuel steps : Nat) (notices : List Notice) (s : State) :
    ∃ report t k, runLoop fuel steps notices s = .next (report, t) ∧ run k s = .next t := by
  induction fuel generalizing steps notices s with
  | zero => exact ⟨none, s, 0, rfl, rfl⟩
  | succ fuel ih =>
    obtain ⟨u, o, hstep, hreport⟩ := everyStepAnswersNext eaResolved s
    cases hstop : u.stopsRun with
    | true => exact ⟨_, u, 1, runLoop_succ_of_stopsRun hstep hreport hstop fuel steps notices, run_succ hstep 0⟩
    | false =>
      obtain ⟨report, t, k, hloop, hrun⟩ := ih (steps + 1) (notices ++ o.notices) u
      exact ⟨report, t, k + 1, (runLoop_succ_of_not_stopsRun hstep hreport hstop fuel steps notices).trans hloop,
        (run_succ hstep k).trans hrun⟩

/-- `op.Leads s t`: from `s` the operation can end in `t`, by the operation. The two that perform steps end where a run
of the machine ends, and the views hand the state back. -/
inductive HostOp.Leads (s : State) : HostOp → State → Prop where
  | reset : Leads s .reset State.reset
  | loadBlock (data : List Byte) (base : Word) : Leads s (.loadBlock data base) (s.loadBlock data base)
  | loadImage (data : List Byte) (base : Word) : Leads s (.loadImage data base) (s.loadImage data base)
  | resetPc : Leads s .resetPc s.resetPc
  | stepN {n : Nat} {t : State} (hrun : run n s = .next t) : Leads s (.stepN n) t
  | runUntilBreakpoint {fuel k : Nat} {t : State} (hrun : run k s = .next t) : Leads s (.runUntilBreakpoint fuel) t
  | addBreakpoint (a : Word) : Leads s (.addBreakpoint a) (s.addBreakpoint a)
  | removeBreakpoint (a : Word) : Leads s (.removeBreakpoint a) (s.removeBreakpoint a)
  | clearBreakpoints : Leads s .clearBreakpoints s.clearBreakpoints
  | view {op : HostOp} (hop : op ∈ [HostOp.listBreakpoints, .snapshot, .instructionCount, .failureLatch]) :
      Leads s op s

/-- Every host operation that answers ends in one of these ways (70_reset_and_hazards.md R284). -/
theorem perform_leads {op : HostOp} {s t : State} {reply : HostReply} (h : perform op s = .next (reply, t)) :
    op.Leads s t := by
  cases op with
  | reset => cases h; exact .reset
  | loadBlock data base => cases h; exact .loadBlock data base
  | loadImage data base => cases h; exact .loadImage data base
  | resetPc => cases h; exact .resetPc
  | stepN n =>
    obtain ⟨records, u, hstepN, -, hrun⟩ := stepNPerformsExactlyN.2 n s
    simp only [perform, hstepN] at h
    cases h
    exact .stepN hrun
  | runUntilBreakpoint fuel =>
    obtain ⟨report, u, k, hloop, hrun⟩ := runLoop_ends_run fuel 0 [] s
    simp only [perform, runUntilBreakpoint, hloop] at h
    cases report with
    | none | some _ => cases h; exact .runUntilBreakpoint hrun
  | addBreakpoint a => cases h; exact .addBreakpoint a
  | removeBreakpoint a => cases h; exact .removeBreakpoint a
  | clearBreakpoints => cases h; exact .clearBreakpoints
  | listBreakpoints | snapshot | instructionCount | failureLatch => cases h; exact .view (by simp)

end Machine

/-- Settles O26, by the way the operation ends: the steps of a run keep the invariant (O25), the loads keep the form of
memory, the breakpoint operations keep the rising order, and reset meets the invariant (O2). -/
theorem hostOperationsKeepInvariant : Obligations.HostOperationsKeepInvariant := by
  intro op s t reply hinv hperform
  have ⟨hmem, hbp, hlatch⟩ := hinv
  cases perform_leads hperform with
  | reset => exact resetMeetsInvariant
  | loadBlock data base | loadImage data base => exact ⟨Memory.wf_load data _ hmem, hbp, hlatch⟩
  | resetPc | view => exact hinv
  | stepN hrun | runUntilBreakpoint hrun => exact run_keeps stepKeepsInvariant hinv hrun
  | addBreakpoint a => exact ⟨hmem, Breakpoints.wf_insert hbp a, hlatch⟩
  | removeBreakpoint a => exact ⟨hmem, Breakpoints.wf_filter hbp a, hlatch⟩
  | clearBreakpoints => exact ⟨hmem, .nil, hlatch⟩

/-- Settles O60, by the way the operation ends: an update leaves every field but those it names, and the hypothesis of a
clause about such a field excludes the operation. -/
theorem hostOperationsFrame : Obligations.HostOperationsFrame := by
  intro op s t reply hperform hreset hstepN hrunUntil
  cases perform_leads hperform with
  | reset => exact absurd rfl hreset
  | stepN => exact absurd rfl (hstepN _)
  | runUntilBreakpoint => exact absurd rfl (hrunUntil _)
  | loadBlock data base =>
    exact ⟨rfl, rfl, rfl, rfl, fun _ _ => rfl, fun _ => rfl, fun _ hblock => absurd rfl (hblock data base),
      fun _ _ _ => rfl⟩
  | loadImage data base =>
    exact ⟨rfl, rfl, rfl, rfl, fun himage _ => absurd rfl (himage data base),
      fun himage => absurd rfl (himage data base), fun himage _ => absurd rfl (himage data base), fun _ _ _ => rfl⟩
  | resetPc =>
    exact ⟨rfl, rfl, rfl, rfl, fun _ hpc => absurd rfl hpc, fun _ => rfl, fun _ _ => rfl, fun _ _ _ => rfl⟩
  | addBreakpoint a =>
    exact ⟨rfl, rfl, rfl, rfl, fun _ _ => rfl, fun _ => rfl, fun _ _ => rfl, fun hadd _ _ => absurd rfl (hadd a)⟩
  | removeBreakpoint a =>
    exact ⟨rfl, rfl, rfl, rfl, fun _ _ => rfl, fun _ => rfl, fun _ _ => rfl,
      fun _ hremove _ => absurd rfl (hremove a)⟩
  | clearBreakpoints =>
    exact ⟨rfl, rfl, rfl, rfl, fun _ _ => rfl, fun _ => rfl, fun _ _ => rfl, fun _ _ hclear => absurd rfl hclear⟩
  | view =>
    exact ⟨rfl, rfl, rfl, rfl, fun _ _ => rfl, fun _ => rfl, fun _ _ => rfl, fun _ _ _ => rfl⟩

end Sys2Proof
end

section
/-! PROOF. The debug unit's records of a run (60_exceptions.md R244 to R249, 10_state.md R27): the counter and the latch
after each step, the trace record of each step, and the stop report of a run that ends. -/

namespace Sys2Proof

open Machine

namespace Machine

/-! What a step that answers leaves in the counter and the latch -/

/-- A step that answers ends in the core's one form, between the count and the latch. -/
theorem step_eq_next {s t : State} (h : step s = .next t) :
    ∃ w n o, t = (s.countStep.endStep w n o).latchFailure := by
  obtain ⟨w, n, o, hstep⟩ := stepWith_endStep eaResolved s
  exact ⟨w, n, o, (Host.Outcome.next.inj (hstep.symm.trans h)).symm⟩

theorem step_icount {s t : State} (h : step s = .next t) : t.icount = s.icount + 1 := by
  obtain ⟨w, n, o, rfl⟩ := step_eq_next h
  simp

theorem StepOutcome.isFailure_iff {o : StepOutcome} : o.isFailure = true ↔ ∃ f, o = .failed f := by
  cases o <;> simp [StepOutcome.isFailure]

theorem StepOutcome.failure?_eq_some_iff {o : StepOutcome} {f : Failure} : o.failure? = some f ↔ o = .failed f := by
  cases o <;> simp [StepOutcome.failure?]

theorem step_fatal_iff {s t : State} (h : step s = .next t) :
    t.fatal = true ↔ s.fatal = true ∨ ∃ f, t.report = some (.failed f) := by
  obtain ⟨w, n, o, rfl⟩ := step_eq_next h
  have hfailed : (s.countStep.endStep w n o).failed = o.isFailure := rfl
  simp [hfailed, StepOutcome.isFailure_iff]

end Machine

/-- Settles O52, by induction on the number of steps: each of them answers (O14) and counts once. -/
theorem counterCountsEveryStep : Obligations.CounterCountsEveryStep := by
  intro k
  induction k with
  | zero => exact fun s => ⟨s, run_zero s, by simp⟩
  | succ k ih =>
    intro s
    obtain ⟨u, _, hstep, -⟩ := everyStepAnswersNext eaResolved s
    obtain ⟨t, hrun, hcount⟩ := ih u
    refine ⟨t, (run_succ hstep k).trans hrun, ?_⟩
    calc t.icount
        = s.icount + BitVec.ofNat 64 1 + BitVec.ofNat 64 k := hcount.trans (congrArg (· + _) (step_icount hstep))
      _ = s.icount + BitVec.ofNat 64 (1 + k) := by rw [BitVec.add_assoc, BitVec.ofNat_add]
      _ = s.icount + BitVec.ofNat 64 (k + 1) := by rw [Nat.add_comm]

/-- Settles O53: a step only ever sets the latch, so a run keeps it set; of the other ways in which an operation ends,
reset alone writes it. -/
theorem latchRecordsFailures : Obligations.LatchRecordsFailures := by
  refine ⟨fun s t => step_fatal_iff, fun op s t reply hreset hperform hfatal => ?_⟩
  have hstep : ∀ u v : State, u.fatal = true → step u = .next v → v.fatal = true :=
    fun u v hu h => (step_fatal_iff h).2 (.inl hu)
  cases perform_leads hperform with
  | reset => exact absurd rfl hreset
  | stepN hrun | runUntilBreakpoint hrun => exact run_keeps hstep hfatal hrun
  | loadBlock | loadImage | resetPc | addBreakpoint | removeBreakpoint | clearBreakpoints | view => exact hfatal

/-- Settles O55, by induction on the number of steps: record 0 is of the first step, and record `k + 1` is record `k` of
the trace that starts after it. -/
theorem traceRecordsEachStep : Obligations.TraceRecordsEachStep := by
  intro n
  induction n with
  | zero => exact fun _ _ _ _ k hk => absurd hk k.not_lt_zero
  | succ n ih =>
    intro s t records htrace k hk
    obtain ⟨v, o, hstep, hreport⟩ := everyStepAnswersNext eaResolved s
    obtain ⟨rest, u, hrest, -, -⟩ := stepNPerformsExactlyN.2 n v
    cases (stepN_succ_of_step hstep hreport hrest).symm.trans htrace
    cases k with
    | zero => exact ⟨s, v, o, rfl, hstep, hreport, rfl⟩
    | succ k =>
      obtain ⟨u', v', o', hrun, hrecord⟩ := ih v t rest hrest k (by omega)
      exact ⟨u', v', o', (run_succ hstep k).trans hrun, hrecord⟩

namespace Machine

/-- What a trace ends in is where as many steps of the machine end. -/
theorem run_of_stepN {n : Nat} {s t : State} {records : List TraceRecord} (h : stepN n s = .next (records, t)) :
    run n s = .next t := by
  obtain ⟨_, u, htrace, -, hrun⟩ := stepNPerformsExactlyN.2 n s
  cases htrace.symm.trans h
  exact hrun

/-- From `s` a run stops in `t` after its step `n + 1` and no sooner; `records` is its trace and `o` the outcome of the
last step (60_exceptions.md R246). -/
structure State.StopsAfter (s : State) (n : Nat) (records : List TraceRecord) (o : StepOutcome) (t : State) : Prop where
  trace : stepN (n + 1) s = .next (records, t)
  goesOn : s.GoesOnFor n
  stops : t.stopsRun = true
  outcome : t.report = some o

section
variable {s t : State} {o : StepOutcome} (hstep : step s = .next t) (hreport : t.report = some o)
include hstep hreport

theorem State.stopsAfter_first (hstop : t.stopsRun = true) :
    s.StopsAfter 0 [{ opAddr := s.pc, op := s.read8 s.pc, outcome := o }] o t :=
  ⟨stepN_succ_of_step hstep hreport rfl, s.goesOnFor_zero, hstop, hreport⟩

/-- A step that does not stop the run comes before those of the rest of it. -/
theorem State.StopsAfter.cons (hstop : t.stopsRun = false) {n : Nat} {records : List TraceRecord} {o' : StepOutcome}
    {u : State} (h : t.StopsAfter n records o' u) :
    s.StopsAfter (n + 1) ({ opAddr := s.pc, op := s.read8 s.pc, outcome := o } :: records) o' u :=
  ⟨stepN_succ_of_step hstep hreport h.trace, (State.goesOnFor_succ_iff hstep n).2 ⟨hstop, h.goesOn⟩, h.stops, h.outcome⟩

end

/-- A loop that ends with a report does so at the first stop, and reports the steps and notices up to it on top of those
it was given (60_exceptions.md R246, R247). -/
theorem runLoop_stopped {fuel steps : Nat} {notices : List Notice} {s t : State} {r : StopReport}
    (h : runLoop fuel steps notices s = .next (some r, t)) :
    ∃ n records o, n < fuel ∧ s.StopsAfter n records o t ∧
      r = { steps := steps + (n + 1), hit := t.breakpoints.contains t.pc, failure := o.failure?,
            notices := notices ++ records.flatMap fun x => x.outcome.notices } := by
  induction fuel generalizing steps notices s with
  | zero => cases h
  | succ fuel ih =>
    obtain ⟨v, o, hstep, hreport⟩ := everyStepAnswersNext eaResolved s
    cases hstop : v.stopsRun with
    | true =>
      cases (runLoop_succ_of_stopsRun hstep hreport hstop fuel steps notices).symm.trans h
      exact ⟨0, _, o, fuel.succ_pos, State.stopsAfter_first hstep hreport hstop, by simp⟩
    | false =>
      rw [runLoop_succ_of_not_stopsRun hstep hreport hstop] at h
      obtain ⟨n, records, o', hn, hstops, rfl⟩ := ih h
      refine ⟨n + 1, _, o', Nat.succ_lt_succ hn, hstops.cons hstep hreport hstop, ?_⟩
      simp [Nat.add_comm, Nat.add_left_comm]

/-- A run stops at a breakpoint or for a failure (60_exceptions.md R246). -/
theorem State.StopsAfter.hit_or_failure {s t : State} {n : Nat} {records : List TraceRecord} {o : StepOutcome}
    (h : s.StopsAfter n records o t) : t.breakpoints.contains t.pc = true ∨ ∃ f, o.failure? = some f := by
  have hstops := h.stops
  rw [State.stopsRun_of_report h.outcome, Bool.or_eq_true, StepOutcome.isFailure_iff] at hstops
  simpa only [StepOutcome.failure?_eq_some_iff] using hstops

theorem StopReport.primaryReason_of_failure {r : StopReport} {f : Failure} (h : r.failure = some f) :
    r.primaryReason = some (.failure f) := by
  simp [StopReport.primaryReason, h]

theorem StopReport.primaryReason_of_hit {r : StopReport} (hnone : r.failure = none) (hhit : r.hit = true) :
    r.primaryReason = some .breakpoint := by
  simp [StopReport.primaryReason, hnone, hhit]

end Machine

/-- Settles O56, from the first stop of the run: it has one of the two reasons, and its trace is the trace of as many
steps. -/
theorem runStopsAtFirstStop : Obligations.RunStopsAtFirstStop := by
  intro fuel s t r hrun
  obtain ⟨n, records, o, hn, hstops, rfl⟩ := runLoop_stopped hrun
  rw [Nat.zero_add]
  have hreason := hstops.hit_or_failure
  refine ⟨n.succ_pos, hn, run_of_stepN hstops.trace, rfl, fun f => ?_, hreason,
    fun f => StopReport.primaryReason_of_failure, fun hnone => StopReport.primaryReason_of_hit hnone ?_,
    fun k u hpos hlt => hstops.goesOn k u hpos (Nat.le_of_lt_succ hlt), fun records' u htrace => ?_⟩
  · rw [hstops.outcome, Option.some.injEq]
    exact StepOutcome.failure?_eq_some_iff
  · exact hreason.resolve_right fun ⟨f, hf⟩ => by simp [hf] at hnone
  · cases hstops.trace.symm.trans htrace
    rfl

end Sys2Proof
end

section
/-! PROOF. The two rejections at the ModRM byte (40_operand_decoder.md R115, R116, 60_exceptions.md R223, R224). -/

namespace Sys2Proof

open Machine

/-- The selectors that name no segment register (10_state.md R13). -/
theorem SReg.ofSelector_eq_none_iff {n : BitVec 3} : SReg.ofSelector n = none ↔ 6 ≤ n := by
  revert n
  decide

theorem checkModRm_of_invalid_selector (resolved : Config.AddressingSet) {m : Byte} (h : 6 ≤ regField m) :
    checkModRm resolved m = .error (.invalidSegmentSelector m) := by
  simp only [checkModRm, SReg.ofSelector_eq_none_iff.2 h]

theorem checkModRm_of_unresolved {resolved : Config.AddressingSet} {m : Byte} (hsel : regField m < 6)
    (hmod : modField m ≠ 3) (hpair : (modField m, rmField m) ∉ resolved) :
    checkModRm resolved m = .error (.unresolvedAddressing m) := by
  obtain ⟨sreg, hsreg⟩ : ∃ sreg, SReg.ofSelector (regField m) = some sreg :=
    Option.ne_none_iff_exists'.1 fun hnone => BitVec.not_lt.2 (SReg.ofSelector_eq_none_iff.1 hnone) hsel
  have hbad : modField m ≠ 3 ∧ ¬ resolved.contains (modField m, rmField m) = true :=
    ⟨hmod, by simpa using hpair⟩
  simp only [checkModRm, hsreg, if_pos hbad]

namespace Machine

/-- A step that makes no write changes PC and its outcome alone (41_dispatch.md R138). -/
theorem State.endStep_nothing (s : State) (n : Nat) (o : StepOutcome) : s.endStep .nothing n o = { s with
    pc := s.pc + BitVec.ofNat 16 n
    report := some o } := rfl

/-- After either opcode with a ModRM byte, a rejection by `CheckModRM` abandons the step two bytes on: the displacement
or address after the ModRM byte is not fetched (60_exceptions.md R230). -/
theorem coreStepWith_of_checkModRm_error {resolved : Config.AddressingSet} {s : State} {e : DecodeError} {f : Failure}
    (hop : s.read8 s.pc = 0x8C ∨ s.read8 s.pc = 0x8E) (hcheck : checkModRm resolved (s.read8 (s.pc + 1)) = .error e)
    (hf : decodeFailure e s.pc = some f) :
    coreStepWith resolved s = .next { s with pc := s.pc + 2, report := some (.failed f) } := by
  have htake : takeModRm resolved (fetchWindow s).tail = .error e := by
    simp only [fetchWindow, List.tail_cons, takeModRm, take8_cons, hcheck]
  have hdec : decodeWith resolved (fetchWindow s) = .error e := by
    rcases hop with hop | hop
    · exact (decodeWith_cons_of_some (c := .movRm16Sreg) (by rw [hop]; rfl) resolved _).trans
        (exceptMap_eq_error_iff.2 htake)
    · exact (decodeWith_cons_of_some (c := .movSregRm16) (by rw [hop]; rfl) resolved _).trans
        (exceptMap_eq_error_iff.2 htake)
  rw [coreStepWith_of_rejected hdec hf, checkModRm_error_consumed hcheck, State.endStep_nothing]
  rfl

end Machine

/-- Settles O17: the selector is looked at before the pair, so no hypothesis about the pair is needed. -/
theorem invalidSelectorAbandonsStep : Obligations.InvalidSelectorAbandonsStep := fun resolved _ hop hsel =>
  coreStepWith_of_checkModRm_error hop (checkModRm_of_invalid_selector resolved hsel) rfl

/-- Settles O18: the selector is legal, so the pair is looked at. -/
theorem unresolvedAddressingAbandonsStep : Obligations.UnresolvedAddressingAbandonsStep :=
  fun _ _ hop hsel hmod hpair => coreStepWith_of_checkModRm_error hop (checkModRm_of_unresolved hsel hmod hpair) rfl

end Sys2Proof
end

section
/-! PROOF. The tables of the spec: opcode ranges, register numbers, ModRM fields, effective addresses, the bytes that it
prints, and the result of the software interrupt (30_encoding.md, 40_operand_decoder.md R108, 10_state.md R12, R13,
45_int.md R210). -/

namespace Sys2Proof

open Machine

/-! Opcode ranges (30_encoding.md R84) -/

/-- Bits 7:3 say which block of eight a byte lies in (30_encoding.md R73). -/
theorem high_bits_eq_iff (op first : Byte) :
    op.extractLsb' 3 5 = first.extractLsb' 3 5 ↔ op.toNat / 8 = first.toNat / 8 := by
  have hop := op.isLt
  have hfirst := first.isLt
  rw [← BitVec.toNat_inj, BitVec.extractLsb'_toNat, BitVec.extractLsb'_toNat, Nat.shiftRight_eq_div_pow,
    Nat.shiftRight_eq_div_pow]
  omega

/-- An opcode byte is unrecognized where all five tests of the dispatcher fail (41_dispatch.md R131). -/
theorem dispatchOpcode_eq_none_iff {op : Byte} : dispatchOpcode op = none ↔
    op.extractLsb' 3 5 ≠ opcMovR8Imm8.extractLsb' 3 5 ∧ op.extractLsb' 3 5 ≠ opcMovR16Imm16.extractLsb' 3 5 ∧
      op ≠ opcMovRm16Sreg ∧ op ≠ opcMovSregRm16 ∧ op ≠ opcIntImm8 := by
  unfold dispatchOpcode
  split_ifs <;> simp [*]

/-- Settles O7: the two families are the blocks of eight that begin at 0xB0 and 0xB8, the other three classes single
bytes, and the five ranges are what lies between. -/
theorem unrecognizedOpcodeRanges : Obligations.UnrecognizedOpcodeRanges := by
  intro op
  rw [dispatchOpcode_eq_none_iff, Ne, Ne, high_bits_eq_iff, high_bits_eq_iff]
  simp only [opcMovR8Imm8, opcMovR16Imm16, opcMovRm16Sreg, opcMovSregRm16, opcIntImm8]
  bv_omega

/-! The unified index (10_state.md R12, R13) -/

theorem SReg.selector_lt (x : SReg) : x.selector.toNat < 6 := by cases x <;> decide

/-- The general registers come first, with their own number. -/
theorem Reg16.ofIndex_of_lt_eight {i : Nat} (h : i < 8) :
    Reg16.ofIndex i = some (.gpr (Gpr.ofNumber (BitVec.ofNat 3 i))) := if_pos h

/-- The segment registers follow them, in the order of their selectors. -/
theorem Reg16.ofIndex_eight_add {j : Nat} (h : j < 6) :
    Reg16.ofIndex (8 + j) = (SReg.ofSelector (BitVec.ofNat 3 j)).map .sreg := by
  rw [Reg16.ofIndex, if_neg (by omega), if_pos (by omega), Nat.add_sub_cancel_left]

theorem Reg16.ofIndex_of_le {i : Nat} (h : 14 ≤ i) : Reg16.ofIndex i = none := by
  rw [Reg16.ofIndex, if_neg (by omega), if_neg (by omega)]

theorem Reg16.ofIndex_index (r : Reg16) : Reg16.ofIndex r.index = some r := by
  cases r with
  | gpr g => simp [Reg16.index, Reg16.ofIndex_of_lt_eight g.number.isLt]
  | sreg x => simp [Reg16.index, Reg16.ofIndex_eight_add x.selector_lt]

theorem Reg16.index_lt (r : Reg16) : r.index < 14 := by
  by_contra h
  simpa [Reg16.ofIndex_of_le (Nat.le_of_not_lt h)] using r.ofIndex_index

theorem SReg.ofSelector_ofNat_ne_none {j : Nat} (h : j < 6) : SReg.ofSelector (BitVec.ofNat 3 j) ≠ none := by
  rw [Ne, SReg.ofSelector_eq_none_iff]
  bv_omega

theorem Reg16.ofIndex_eq_none_iff (i : Nat) : Reg16.ofIndex i = none ↔ 14 ≤ i := by
  refine ⟨fun hnone => ?_, Reg16.ofIndex_of_le⟩
  by_contra hlt
  by_cases hgpr : i < 8
  · simp [Reg16.ofIndex_of_lt_eight hgpr] at hnone
  · obtain ⟨j, rfl⟩ := Nat.exists_eq_add_of_le (Nat.le_of_not_lt hgpr)
    have hj : j < 6 := by omega
    rw [Reg16.ofIndex_eight_add hj, Option.map_eq_none_iff] at hnone
    exact SReg.ofSelector_ofNat_ne_none hj hnone

/-- Settles O10: the index of a register names it again, and the two blocks fill the numbers below 14. -/
theorem unifiedIndexNamesFourteen : Obligations.UnifiedIndexNamesFourteen :=
  ⟨fun r => ⟨r.index_lt, r.ofIndex_index⟩, Reg16.ofIndex_eq_none_iff, rfl⟩

/-! The ModRM byte (30_encoding.md R72) -/

theorem toNat_modRmByte (mod : BitVec 2) (reg rm : BitVec 3) :
    (modRmByte mod reg rm).toNat = mod.toNat * 64 + reg.toNat * 8 + rm.toNat := by
  have hreg := reg.isLt
  have hrm := rm.isLt
  rw [modRmByte, BitVec.toNat_append, BitVec.toNat_append, ← Nat.shiftLeft_add_eq_or_of_lt hreg,
    ← Nat.shiftLeft_add_eq_or_of_lt hrm, Nat.shiftLeft_eq, Nat.shiftLeft_eq]
  omega

/-- Settles O12: a byte is composed of its own fields, so it has the value of a composed one. -/
theorem modRmFieldsComposeByte : Obligations.ModRmFieldsComposeByte := by
  refine ⟨fun m => ?_, fun mod reg rm =>
    ⟨modField_modRmByte mod reg rm, regField_modRmByte mod reg rm, rmField_modRmByte mod reg rm⟩⟩
  rw [← toNat_modRmByte, modRmByte_fields]

/-! Effective addresses (40_operand_decoder.md R107, R108) -/

/-- Settles O33: the rows of the two tables, `BaseIndex` and the form. -/
theorem effectiveAddressTable : Obligations.EffectiveAddressTable := fun _ _ _ _ _ =>
  ⟨rfl, rfl, rfl, rfl, rfl, rfl, rfl, rfl, rfl, rfl, fun _ => ⟨rfl, rfl, rfl⟩⟩

/-! Printed bytes and the software interrupt -/

/-- O4 for a well-formed instruction alone, under the default EA_RESOLVED. -/
theorem decode_encode {i : Instr} (h : i.wellFormed = true) : decode (encode i) = .ok (i, []) := by
  simpa [decode] using decodeInvertsEncode eaResolved i [] h

/-- Settles O6: each sequence is the encoding of the instruction, which is read back (O4). -/
theorem specBytesDecode : Obligations.SpecBytesDecode :=
  ⟨decode_encode (i := .movAH 0xAB) rfl, decode_encode (i := .movAX 0x1234) rfl,
    decode_encode (i := .movRm16Sreg (.base .bxSi) .es) rfl, decode_encode (i := .movRm16Sreg (.reg .bx) .ds) rfl,
    decode_encode (i := .movSregRm16 .ds (.reg .ax)) rfl, decode_encode (i := .movSregRm16 .ss (.direct 0x2010)) rfl,
    decode_encode (i := .movSregRm16 .es (.disp8 .bpDi 0xF0)) rfl,
    decode_encode (i := .movRm16Sreg (.disp16 .si 0x2000) .fs) rfl, decode_encode (i := .intImm8 0x21) rfl⟩

/-- Settles O42: the opcode byte takes one vector byte, and INT makes no write. -/
theorem intReportsVector : Obligations.IntReportsVector := by
  intro s v rest
  refine ⟨decodeWith_opcode eaResolved .intImm8 (v :: rest), ?_⟩
  rw [exec_eq, Instr.write, Instr.outcome, State.endStep_nothing]
  rfl

end Sys2Proof
end
